-- ==== Sys2Proof/Word.lean ====
section
/-! DEFINITION. The word types of the engine and the byte sequences of the serial link (spec 00_scope R7, R8, R9). -/

namespace Sys2Proof

/-- One byte of an exchange, 8 bits (R9). -/
abbrev Byte := BitVec 8

/-- One 16-bit word: the outbound word W, a raw sample, one word of DST (R7, R48). -/
abbrev Word16 := BitVec 16

/-- One host command word, `CW[31:0]` (R70). -/
abbrev CommandWord := BitVec 32

/-- A RegisterConfig: the 13-bit value of P, of A, of a CFG operand and of a CFG result (R24). -/
abbrev RegisterConfig := BitVec 13

/-- The lengths an exchange may have: 2 or 4 bytes, never anything else (R47). -/
inductive XferLen where
  | two
  | four
deriving DecidableEq, Repr

/-- The number of bytes of an exchange. -/
def XferLen.bytes : XferLen → Nat
  | .two => 2
  | .four => 4

/-- A byte sequence of an exchange, in line order, the first byte first (R9): 2 or 4 bytes (R40, R42). -/
inductive Bytes where
  | two (b0 b1 : Byte)
  | four (b0 b1 b2 b3 : Byte)
deriving DecidableEq, Repr

/-- How many bytes a sequence has: the `n` of `Xfer(out, n)` and of the trace event `XFER(n, out, result)`. -/
def Bytes.len : Bytes → XferLen
  | .two _ _ => .two
  | .four _ _ _ _ => .four

end Sys2Proof
end

