-- ==== Sys2Proof/Config.lean ====
section
/-! DEFINITION. What this hardware fixes and what it leaves to the transport: the open types TCfg and TErr, the
parameter ECHO14_LSB, and the transport oracle's free answers (spec 00_scope R7, 20_memory R41 to R44, R58). -/

namespace Sys2Proof.Config

/-- What the type argument `TCfg` of the model (R7 OPEN, R41, D27: any type, no default) stands for where a type is named
with no argument, as the fixed names `Instr`, `State`, `exec` and `step` are: a number wrapped in a structure of its own.
DESIGN CHOICE (log entry 4). Safe. -/
structure TCfg where
  tag : Nat
deriving DecidableEq, Repr, Inhabited

/-- The same for the type argument `TErr` of the model (R7 OPEN, R41, R163, D15). DESIGN CHOICE (log entry 4). Safe. -/
structure TErr where
  code : Nat
deriving DecidableEq, Repr, Inhabited

/-- `ECHO14_LSB`, the lowest frame bit of the echo window of the 14-bit variant: 4, the window is F[17:4] (R7, R106).
Log entry 13. -/
def echo14Lsb : Nat := 4

/-- What the transport does with one `Acquire` (R41, R44, R58). -/
inductive AcqAnswer (TErr : Type := Config.TErr) where
  | ok
  | err (e : TErr)
  /-- The transport never answers (R58). -/
  | never
deriving DecidableEq, Repr, Inhabited

/-- What the transport does with one `Xfer` (R42, R44, R58). -/
inductive XferAnswer (TErr : Type := Config.TErr) where
  /-- The inbound bytes: an exchange of 4 bytes takes all four, one of 2 bytes the first two (log entry 2). -/
  | ok (b0 b1 b2 b3 : Byte)
  | err (e : TErr)
  /-- The transport never answers (R58). -/
  | never
deriving DecidableEq, Repr, Inhabited

/-- FREE VALUE (log entry 1): the transport's answer to the `k`-th request that State's queues leave open, an `Acquire`
with this configuration. Nothing constrains it (R44). -/
opaque acqDraw {TCfg TErr : Type} (k : Nat) (tcfg : TCfg) : AcqAnswer TErr

/-- FREE VALUE (log entry 1): the transport's answer to the `k`-th request that State's queues leave open, an `Xfer` of
these bytes. Nothing constrains it (R44). -/
opaque xferDraw {TErr : Type} (k : Nat) (out : Bytes) : XferAnswer TErr

end Sys2Proof.Config
end

