-- ==== Sys2Proof/Syntax.lean ====
section
/-! DEFINITION. The six host commands, one constructor per row of spec/opcode_table.json (spec 30_encoding R70 to R77). -/

namespace Sys2Proof

/-- A decoded host command with its operands, each of the width the spec gives it (R72 to R77). The side operand's type is an
argument (R7, D27). -/
inductive Instr (TCfg : Type := Config.TCfg) where
  /-- TRANSACT, format T (R72): CWE, WC, WS and CFG. CFG is kept when CWE = 0 and then ignored. -/
  | transact (cwe wc ws : Bool) (cfg : RegisterConfig)
  /-- WRITE_CONFIG, format C (R73). -/
  | writeConfig (cfg : RegisterConfig)
  /-- READ_CONFIG, format N (R74). -/
  | readConfig
  /-- BULK_READ, format B (R75): DV and COUNT. -/
  | bulkRead (dv : Bool) (count : BitVec 16)
  /-- INIT, format I (R76): VTAG, CFG and the side operand tcfg, which is not part of the 32 bits. -/
  | init (vtag : BitVec 8) (cfg : RegisterConfig) (tcfg : TCfg)
  /-- TEARDOWN, format N (R74). -/
  | teardown
deriving DecidableEq, Repr

/-- One command as the host presents it: the word, and beside it the side operand, which only an INIT reads (R70). -/
structure Command (TCfg : Type := Config.TCfg) where
  word : CommandWord
  tcfg : TCfg
deriving DecidableEq, Repr

end Sys2Proof
end

