-- ==== Sys2Proof/WellFormed.lean ====
section
/-! DEFINITION. Which command words are legal (spec 30_encoding R82, R87). The operands of Instr carry the spec's widths
in their types, so no term of Instr is ill-formed: what can be ill-formed is a command WORD, and the checks are on it. -/

namespace Sys2Proof

/-- One row of spec/opcode_table.json: a word is that command exactly when `word &&& mask = value` (R87). -/
structure OpcodeRow where
  mnemonic : String
  mask : CommandWord
  value : CommandWord
deriving DecidableEq, Repr

def OpcodeRow.matches (r : OpcodeRow) (w : CommandWord) : Bool := w &&& r.mask == r.value

def rowTransact : OpcodeRow := ⟨"TRANSACT", 0xF1FFE000#32, 0x00000000#32⟩
def rowWriteConfig : OpcodeRow := ⟨"WRITE_CONFIG", 0xFFFFE000#32, 0x10000000#32⟩
def rowReadConfig : OpcodeRow := ⟨"READ_CONFIG", 0xFFFFFFFF#32, 0x20000000#32⟩
def rowBulkRead : OpcodeRow := ⟨"BULK_READ", 0xF7FF0000#32, 0x30000000#32⟩
def rowInit : OpcodeRow := ⟨"INIT", 0xF00FE000#32, 0x40000000#32⟩
def rowTeardown : OpcodeRow := ⟨"TEARDOWN", 0xFFFFFFFF#32, 0x50000000#32⟩

/-- The opcode table (R71, R87; spec/opcode_table.json). -/
def opcodeTable : List OpcodeRow :=
  [rowTransact, rowWriteConfig, rowReadConfig, rowBulkRead, rowInit, rowTeardown]

/-- A word that matches some row is legal; a word that matches no row is illegal (R82, R87). -/
def legalWord (w : CommandWord) : Bool := opcodeTable.any fun r => r.matches w

/-- The table row an instruction belongs to. -/
def Instr.row {TCfg : Type} : Instr TCfg → OpcodeRow
  | .transact _ _ _ _ => rowTransact
  | .writeConfig _ => rowWriteConfig
  | .readConfig => rowReadConfig
  | .bulkRead _ _ => rowBulkRead
  | .init _ _ _ => rowInit
  | .teardown => rowTeardown

end Sys2Proof
end

