-- ==== Sys2Proof/Decode.lean ====
section
/-! DEFINITION. The decoder of command words, total and rejecting by name, and after it the encoder (spec 30_encoding
R70 to R77, R82, R86, R87). -/

namespace Sys2Proof

/-- Why a command word is illegal (R82). -/
inductive Illegal where
  /-- OP is 0x6 to 0xF. -/
  | reservedOpcode (op : BitVec 4)
  /-- A bit that the command's format marks "zero" is 1. -/
  | nonZeroBits (op : BitVec 4)
deriving DecidableEq, Repr

/-- `CW[31:28]`, the opcode (R70). -/
def opField (w : CommandWord) : BitVec 4 := w.extractLsb' 28 4

/-- `CW[12:0]`, the CFG operand of formats T, C and I (R77). -/
def cfgField (w : CommandWord) : RegisterConfig := w.extractLsb' 0 13

variable {TCfg : Type}

/-- `i` where the format's zero bits are 0, else the rejection (R82). -/
def checkZero (w : CommandWord) (zero : Bool) (i : Instr TCfg) : Except Illegal (Instr TCfg) :=
  if zero then .ok i else .error (.nonZeroBits (opField w))

/-- Format T (R72): zero bits 24:13. -/
def decodeTransact (w : CommandWord) : Except Illegal (Instr TCfg) :=
  checkZero w (w.extractLsb' 13 12 == 0#12)
    (.transact (w.getLsbD 27) (w.getLsbD 26) (w.getLsbD 25) (cfgField w))

/-- Format C (R73): zero bits 27:13. -/
def decodeWriteConfig (w : CommandWord) : Except Illegal (Instr TCfg) :=
  checkZero w (w.extractLsb' 13 15 == 0#15) (.writeConfig (cfgField w))

/-- Format N (R74), READ_CONFIG: zero bits 27:0. -/
def decodeReadConfig (w : CommandWord) : Except Illegal (Instr TCfg) :=
  checkZero w (w.extractLsb' 0 28 == 0#28) .readConfig

/-- Format B (R75): zero bits 26:16. -/
def decodeBulkRead (w : CommandWord) : Except Illegal (Instr TCfg) :=
  checkZero w (w.extractLsb' 16 11 == 0#11) (.bulkRead (w.getLsbD 27) (w.extractLsb' 0 16))

/-- Format I (R76): zero bits 19:13; the side operand comes beside the word. -/
def decodeInit (w : CommandWord) (tcfg : TCfg) : Except Illegal (Instr TCfg) :=
  checkZero w (w.extractLsb' 13 7 == 0#7) (.init (w.extractLsb' 20 8) (cfgField w) tcfg)

/-- Format N (R74), TEARDOWN: zero bits 27:0. -/
def decodeTeardown (w : CommandWord) : Except Illegal (Instr TCfg) :=
  checkZero w (w.extractLsb' 0 28 == 0#28) .teardown

/-- The decoding procedure (R87): the opcode first, then the format's zero bits, then its fields. -/
def decode (w : CommandWord) (tcfg : TCfg) : Except Illegal (Instr TCfg) :=
  match (opField w).toNat with
  | 0 => decodeTransact w
  | 1 => decodeWriteConfig w
  | 2 => decodeReadConfig w
  | 3 => decodeBulkRead w
  | 4 => decodeInit w tcfg
  | 5 => decodeTeardown w
  | _ => .error (.reservedOpcode (opField w))

/-- The 32-bit word of an instruction, by the format tables R72 to R76. -/
def encodeWord : Instr TCfg → CommandWord
  | .transact cwe wc ws cfg =>
    0x0#4 ++ BitVec.ofBool cwe ++ BitVec.ofBool wc ++ BitVec.ofBool ws ++ 0#12 ++ cfg
  | .writeConfig cfg => 0x1#4 ++ 0#15 ++ cfg
  | .readConfig => 0x2#4 ++ 0#28
  | .bulkRead dv count => 0x3#4 ++ BitVec.ofBool dv ++ 0#11 ++ count
  | .init vtag cfg _ => 0x4#4 ++ vtag ++ 0#7 ++ cfg
  | .teardown => 0x5#4 ++ 0#28

/-- The side operand a test harness presents where an instruction has none of its own (log entry 12). DESIGN CHOICE. -/
def noTcfg : Config.TCfg := ⟨0⟩

/-- The side operand of an instruction: INIT's own; the others read none (R70). -/
def encodeTcfg : Instr → Config.TCfg
  | .init _ _ tcfg => tcfg
  | .transact _ _ _ _ => noTcfg
  | .writeConfig _ => noTcfg
  | .readConfig => noTcfg
  | .bulkRead _ _ => noTcfg
  | .teardown => noTcfg

/-- The command the host presents for an instruction: the word and its side operand. -/
def encode (i : Instr) : Command := ⟨encodeWord i, encodeTcfg i⟩

/-- Pseudo-command `CONV` (R86): a conversion-only cycle with no outputs. -/
def pseudoConv : Instr := .transact false false false 0#13

/-- Pseudo-command `SAMPLE` (R86). -/
def pseudoSample : Instr := .transact false false true 0#13

/-- Pseudo-command `CONFIRM` (R86). -/
def pseudoConfirm : Instr := .transact false true false 0#13

/-- The command word whose bits, numbered as spec/opcode_table.json numbers them, are `w` below `nbits` and 0 above. -/
def tableWord (nbits w : Nat) : CommandWord := BitVec.ofNat 32 (w % 2 ^ nbits)

/-- The instruction the decoder reads from such a word; an INIT is given the side operand `noTcfg`, which the table's
bits do not hold (log entry 12). -/
def decodeTableWord (nbits w : Nat) : Option Instr :=
  match decode (tableWord nbits w) noTcfg with
  | .ok i => some i
  | .error _ => none

end Sys2Proof
end

