-- ==== Sys2Proof/Machine/State.lean ====
section
/-! DEFINITION. The state of the engine and of what it exchanges with the outside, as plain data, and its value after
reset (spec 10_state R20 to R33, 20_memory R44, R45, R48, R60, 30_encoding R80, 70_reset R190). -/

namespace Sys2Proof.Machine

open Sys2Proof.Config

/-- The status of a response: OK or one of the three error kinds (R80, R160). -/
inductive Status where
  | ok
  | invalidArgument
  | allocationFailure
  | transportFailure
deriving DecidableEq, Repr

/-- The response record, its six fields (R80). -/
structure Response (TErr : Type := Config.TErr) where
  status : Status
  err : Option TErr
  sv : Bool
  sample : Word16
  cv : Bool
  cfg : RegisterConfig
deriving DecidableEq, Repr

/-- The result of an `Acquire` that answered (R41). -/
inductive AcqResult (TErr : Type := Config.TErr) where
  | ok
  | err (e : TErr)
deriving DecidableEq, Repr

/-- The result of an `Xfer` that answered (R42). -/
inductive XferResult (TErr : Type := Config.TErr) where
  | ok (inb : Bytes)
  | err (e : TErr)
deriving DecidableEq, Repr

/-- What is observed of the engine, in the order it happens: the three transport events of the trace (R45), the DST
writes (R48, R53) and the responses (R54, R80). `hwReset` is the model's own marker of a hardware reset, which is no
transport event (R190; log entry 8). -/
inductive Event (TCfg : Type := Config.TCfg) (TErr : Type := Config.TErr) where
  /-- `ACQ(tcfg, result)` -/
  | acq (tcfg : TCfg) (result : AcqResult TErr)
  /-- `XFER(n, out, result)`; `n` is the length of `out`. -/
  | xfer (out : Bytes) (result : XferResult TErr)
  /-- `REL` -/
  | rel
  /-- `DST[i] <- v` -/
  | dstWrite (i : Nat) (v : Word16)
  /-- the response of a command -/
  | resp (r : Response TErr)
  | hwReset
deriving DecidableEq, Repr

/-- A request the transport has not answered (R58). -/
inductive Request (TCfg : Type := Config.TCfg) where
  | acquire (tcfg : TCfg)
  | xfer (out : Bytes)
deriving DecidableEq, Repr

/-- What the outside does to an idle engine (R60 (b), R190; log entry 7). -/
inductive Input (TCfg : Type := Config.TCfg) where
  /-- The host issues a command (R52, R70). -/
  | command (c : Command TCfg)
  /-- The host writes one word of its DST between commands (R60 (b)). -/
  | hostWrite (i : BitVec 16) (v : Word16)
  /-- Hardware reset between commands (R190); never in mid-command (R191). -/
  | reset
deriving DecidableEq, Repr

/-- DST (R48): the words that have been written, as (index, word) pairs at strictly rising indices. A word that is not
listed still holds what the host left there, which the model does not know (R32, U19; log entries 5 and 6). -/
abbrev Dst := List (Nat × Word16)

/-- Why the machine stops. It has no constructor: no rule of the spec stops the engine. "There is no other error, no
fault state and no sticky error bit" (R160); an error is a response (R167) and a transport that never answers is a run that goes on
for ever (R58). Nobody raises a fault. Safe. -/
inductive Fault where
deriving DecidableEq, Repr

/-- Why an instruction has no meaning. -/
inductive Refusal where
  /-- An arm of `exec` whose instruction has no meaning yet. No arm raises it now. Safe. -/
  | notModelled (mnemonic : String)
deriving DecidableEq, Repr

/-- The engine's four registers (R20), its sequencer step (R29), the host's DST (R48), and the model's own record of
inputs and observations. The types of transport configurations and errors are arguments of it (R7: OPEN; D15, D27). -/
structure State (TCfg : Type := Config.TCfg) (TErr : Type := Config.TErr) where
  /-- `V`, the variant register (R21). -/
  v : BitVec 2
  /-- `READY`, the lifecycle bit (R22). -/
  ready : Bool
  /-- `P`, shadow slot pending (R23). -/
  p : RegisterConfig
  /-- `A`, shadow slot active (R23). -/
  a : RegisterConfig
  /-- The sequencer step (R29, R31): 0 between commands, else the successful exchanges of the running command. -/
  seqStep : Nat
  /-- `DST` (R48). -/
  dst : Dst
  /-- What the outside will do to the idle engine, next first (R52, R60). The model's own (log entry 7). -/
  port : List (Input TCfg)
  /-- The transport's next answers to `Acquire` (R44). The model's own (log entry 1). -/
  acqAnswers : List (AcqAnswer TErr)
  /-- The transport's next answers to `Xfer` (R44). The model's own (log entry 1). -/
  xferAnswers : List (XferAnswer TErr)
  /-- How many answers came from the free values of Config. The model's own (log entry 1). -/
  draws : Nat
  /-- The request the transport never answered: the running command then never returns (R58; log entry 3). -/
  waiting : Option (Request TCfg)
  /-- What has been observed, oldest first (R45, R53, R60). The model's own (log entry 8). -/
  log : List (Event TCfg TErr)
deriving DecidableEq, Repr

/-- The machine right after hardware reset: UNINIT, every register zero, idle (R32, R190). DST has no known word (U19),
no input is waiting and nothing has been observed. -/
def State.resetOf (TCfg TErr : Type) : State TCfg TErr where
  v := 0#2
  ready := false
  p := 0#13
  a := 0#13
  seqStep := 0
  dst := []
  port := []
  acqAnswers := []
  xferAnswers := []
  draws := 0
  waiting := none
  log := []

/-- The same at the types of Config. -/
def State.reset : State := State.resetOf Config.TCfg Config.TErr

end Sys2Proof.Machine
end

