-- ==== Sys2Proof/Machine/Operands.lean ====
section
/-! DEFINITION. The pure functions between a RegisterConfig, the outbound word, the inbound bytes and the results
(spec 10_state R24, R25, 40_transact R100 to R109). -/

namespace Sys2Proof.Machine

/-- `c.incc`, bits 12:10 (R24). -/
def incc (c : RegisterConfig) : BitVec 3 := c.extractLsb' 10 3
/-- `c.inx`, bits 9:7 (R24). -/
def inx (c : RegisterConfig) : BitVec 3 := c.extractLsb' 7 3
/-- `c.bw`, bit 6 (R24). -/
def bw (c : RegisterConfig) : BitVec 1 := c.extractLsb' 6 1
/-- `c.ref`, bits 5:3 (R24). -/
def ref (c : RegisterConfig) : BitVec 3 := c.extractLsb' 3 3
/-- `c.seq`, bits 2:1 (R24). -/
def seq (c : RegisterConfig) : BitVec 2 := c.extractLsb' 1 2
/-- `c.rb`, bit 0, in its logical sense: true is readback enabled (R24). -/
def rb (c : RegisterConfig) : Bool := c.getLsbD 0

/-- A RegisterConfig from its six fields (R24). -/
def configOf (incc inx : BitVec 3) (bw : BitVec 1) (ref : BitVec 3) (seq : BitVec 2) (rb : Bool) : RegisterConfig :=
  incc ++ inx ++ bw ++ ref ++ seq ++ BitVec.ofBool rb

/-- `c` with the readback flag set to `b` (R132: `ca <- c0 with rb = 1`). -/
def withRb (c : RegisterConfig) (b : Bool) : RegisterConfig :=
  configOf (incc c) (inx c) (bw c) (ref c) (seq c) b

/-- `ZERO`, the RegisterConfig with every field 0 (R25). -/
def zeroConfig : RegisterConfig := 0#13

/-- `PackCfg(c)`, the outbound word that writes `c` (R78, R100): write-enable 1, the fields, the inverted readback bit,
two pad bits. -/
def packCfg (c : RegisterConfig) : Word16 :=
  1#1 ++ incc c ++ inx c ++ bw c ++ ref c ++ seq c ++ BitVec.ofBool (!rb c) ++ 0#2

/-- `OutBytes(cwe, c, n)`, the outbound bytes of an exchange (R46, R101): the word big-endian, then zeros. -/
def outBytes (cwe : Bool) (c : RegisterConfig) (n : XferLen) : Bytes :=
  let w : Word16 := if cwe then packCfg c else 0#16
  match n with
  | .two => .two (w.extractLsb' 8 8) (w.extractLsb' 0 8)
  | .four => .four (w.extractLsb' 8 8) (w.extractLsb' 0 8) 0#8 0#8

/-- `Raw16(in)`, the first two bytes, big-endian (R103). -/
def raw16 : Bytes → Word16
  | .two b0 b1 => b0 ++ b1
  | .four b0 b1 _ _ => b0 ++ b1

/-- The frame of a byte sequence (R9), zero-extended to 32 bits where it has 16. -/
def frame : Bytes → BitVec 32
  | .two b0 b1 => 0#16 ++ b0 ++ b1
  | .four b0 b1 b2 b3 => b0 ++ b1 ++ b2 ++ b3

/-- `V14`, the variant with 14-bit resolution (R7, R21). -/
def v14 : BitVec 2 := 2#2

/-- The sample as a signed integer: divided by 4, truncating toward zero, for the 14-bit variant (R104, R105). -/
def sampleValue (v : BitVec 2) (inb : Bytes) : Int :=
  if v = v14 then (raw16 inb).toInt.tdiv 4 else (raw16 inb).toInt

/-- `DecodeSample(v, in)`, delivered as its 16-bit two's-complement pattern (R49, R104). -/
def decodeSample (v : BitVec 2) (inb : Bytes) : Word16 := BitVec.ofInt 16 (sampleValue v inb)

/-- `EchoWord(v, in)`, the 14-bit echo window of a 4-byte `in` (R79, R106). `transact` asks for it of 4 bytes only. -/
def echoWord (v : BitVec 2) (inb : Bytes) : BitVec 14 :=
  if v = v14 then (frame inb).extractLsb' Config.echo14Lsb 14 else (frame inb).extractLsb' 2 14

/-- `UnpackCfg(e14)`: the fields of the wire word, the readback bit back in its logical sense; bit 13 is not read
(R107). -/
def unpackCfg (e : BitVec 14) : RegisterConfig :=
  configOf (e.extractLsb' 10 3) (e.extractLsb' 7 3) (e.extractLsb' 6 1) (e.extractLsb' 3 3) (e.extractLsb' 1 2)
    (!e.getLsbD 0)

/-- `Advance(P, A, cwe, c)` as the pair (P', A') (R109): the old `A` is discarded. -/
def advanceSlots (p _a : RegisterConfig) (cwe : Bool) (c : RegisterConfig) : RegisterConfig × RegisterConfig :=
  (if cwe then c else p, p)

end Sys2Proof.Machine
end

