-- ==== Sys2Proof/Machine/Flags.lean ====
section
/-! DEFINITION. The engine has no flag register (spec 10_state R28): the one predicate is the readback flag of the active
slot, read before a transfer. Here are the length rule it steers and the numbers of the status codes. -/

namespace Sys2Proof.Machine

variable {TCfg TErr : Type}

/-- `rb_act`: `A.rb` read before a transfer, the one predicate that steers sequencing (R28). -/
def rbAct (s : State TCfg TErr) : Bool := rb s.a

/-- `XferLen(wc, rb_act)`, the length rule (R102). -/
def xferLen (wc rbActive : Bool) : XferLen := if wc && rbActive then .four else .two

/-- The status numbers for a bus wrapper (R81). -/
def statusCode : Status → Nat
  | .ok => 0
  | .invalidArgument => 1
  | .allocationFailure => 2
  | .transportFailure => 3

end Sys2Proof.Machine
end

