-- ==== Sys2Proof/Machine/Ops.lean ====
section
/-! DEFINITION. The named operations: DST, the record of events, the transport port, the transaction primitive, how a
command ends, and what an idle engine does with its inputs (spec 20_memory R41 to R60, 40_transact R110, R111,
60_exceptions R160 to R170, 70_reset R190). -/

namespace Sys2Proof.Machine

open Sys2Proof.Config

variable {TCfg TErr : Type}

/-! ### DST (R48) -/

/-- The word written last at an index, or none where nothing has been written: the host's own contents, unknown. -/
def dstRead : Dst → Nat → Option Word16
  | [], _ => none
  | (j, w) :: rest, i => if i = j then some w else dstRead rest i

/-- `DST[i] <- v`, keeping the indices strictly rising. -/
def dstWrite : Dst → Nat → Word16 → Dst
  | [], i, v => [(i, v)]
  | (j, w) :: rest, i, v =>
    if i < j then (i, v) :: (j, w) :: rest
    else if i = j then (i, v) :: rest
    else (j, w) :: dstWrite rest i v

/-- The canonical form: strictly rising indices, each below 65536. An unlisted word reads as none, so that no entry
equals what an unlisted word reads as. -/
def dstWf : Dst → Bool
  | [] => true
  | [(j, _)] => decide (j < 65536)
  | (j, _) :: (k, w) :: rest => decide (j < k) && decide (j < 65536) && dstWf ((k, w) :: rest)

/-! ### The updates of State -/

/-- Something observable happens (R45, R53). -/
def State.emit (e : Event TCfg TErr) (s : State TCfg TErr) : State TCfg TErr := { s with log := s.log ++ [e] }

/-- The pipeline-advance step of a successful exchange (R109), which also moves the sequencer one step on (R29). -/
def State.advance (cwe : Bool) (c : RegisterConfig) (s : State TCfg TErr) : State TCfg TErr :=
  { s with p := (advanceSlots s.p s.a cwe c).1, a := (advanceSlots s.p s.a cwe c).2, seqStep := s.seqStep + 1 }

/-- INIT's allocation step: V, and both slots ZERO (R32, R150 step 3). -/
def State.allocate (vtag : BitVec 8) (s : State TCfg TErr) : State TCfg TErr :=
  { s with v := vtag.extractLsb' 0 2, p := zeroConfig, a := zeroConfig }

/-- READY is written (R22). -/
def State.setReady (b : Bool) (s : State TCfg TErr) : State TCfg TErr := { s with ready := b }

/-- The transport does not answer a request: the engine waits, for ever (R58). -/
def State.wait (q : Request TCfg) (s : State TCfg TErr) : State TCfg TErr := { s with waiting := some q }

/-- The engine writes one word of DST (R48, R49). -/
def State.writeDst (i : Nat) (v : Word16) (s : State TCfg TErr) : State TCfg TErr :=
  { s with dst := dstWrite s.dst i v, log := s.log ++ [.dstWrite i v] }

/-- A command ends: its response is delivered and the sequencer is idle again (R29, R54, R170). THE ONE OPERATION that
every ending goes through, OK or error: an error saves no context, transfers control nowhere and undoes nothing (R167,
R168). -/
def State.respond (r : Response TErr) (s : State TCfg TErr) : State TCfg TErr :=
  { s with log := s.log ++ [.resp r], seqStep := 0 }

/-- The engine accepts the first input of the port (R52, R56). -/
def State.accept (rest : List (Input TCfg)) (s : State TCfg TErr) : State TCfg TErr := { s with port := rest }

/-- The host writes one word of its DST between commands (R60 (b)). -/
def State.hostWrite (i : BitVec 16) (v : Word16) (s : State TCfg TErr) : State TCfg TErr :=
  { s with dst := dstWrite s.dst i.toNat v }

/-- Hardware reset of an idle engine (R190): every register zero; no transport event; DST, the inputs and what has been
observed stay. -/
def State.hardwareReset (s : State TCfg TErr) : State TCfg TErr :=
  { s with
    v := (State.resetOf TCfg TErr).v, ready := (State.resetOf TCfg TErr).ready
    p := (State.resetOf TCfg TErr).p, a := (State.resetOf TCfg TErr).a
    seqStep := (State.resetOf TCfg TErr).seqStep
    log := s.log ++ [.hwReset] }

/-! ### Responses (R80) -/

/-- A response that carries only a status and perhaps a transport error. -/
def Response.plain (st : Status) (e : Option TErr) : Response TErr := ⟨st, e, false, 0#16, false, 0#13⟩

/-- OK with no result. -/
def Response.okPlain : Response TErr := .plain .ok none

/-- INVALID_ARGUMENT (R161). -/
def Response.invalid : Response TErr := .plain .invalidArgument none

/-- ALLOCATION_FAILURE (R162). -/
def Response.allocation : Response TErr := .plain .allocationFailure none

/-- TRANSPORT_FAILURE with the transport's error, verbatim (R163). -/
def Response.transport (e : TErr) : Response TErr := .plain .transportFailure (some e)

/-- The status and the error alone, as the facade commands return them (R130, R140, R150). -/
def Response.statusOnly (r : Response TErr) : Response TErr := .plain r.status r.err

/-! ### Sequencing -/

/-- How a part of a command ends: it is done with a value, or it waits for ever on the transport (R58). -/
inductive Flow (TCfg TErr α : Type) where
  | done (s : State TCfg TErr) (a : α)
  | hung (s : State TCfg TErr)
deriving Repr

/-- A part of a command that ends with a response. -/
abbrev Part (TCfg TErr : Type) : Type := Flow TCfg TErr (Response TErr)

/-- What a command or a step answers. -/
abbrev Outcome (TCfg TErr : Type) : Type := Host.Outcome (State TCfg TErr) Fault Refusal

/-- One part of a command after another (R53). -/
def Flow.andThen {α β : Type} (f : Flow TCfg TErr α) (k : State TCfg TErr → α → Flow TCfg TErr β) : Flow TCfg TErr β :=
  match f with
  | .done s a => k s a
  | .hung s => .hung s

/-- The next part only where this one answered OK, else its response at once (R132, R167). -/
def Flow.onOk (f : Part TCfg TErr) (k : State TCfg TErr → Response TErr → Part TCfg TErr) :
    Part TCfg TErr :=
  f.andThen fun s r => if r.status = .ok then k s r else .done s r

/-- The response cut down to status and error. -/
def Flow.statusOnly (f : Part TCfg TErr) : Part TCfg TErr := f.andThen fun s r => .done s r.statusOnly

/-- The end of a command: the response is delivered, or the engine waits for ever. -/
def Flow.deliver (f : Part TCfg TErr) : State TCfg TErr :=
  match f with
  | .done s r => s.respond r
  | .hung s => s

/-- The outcome of a command: always a next state. -/
def Flow.finish (f : Part TCfg TErr) : Outcome TCfg TErr := .next f.deliver

/-- The precondition "handle is valid/initialized": INVALID_ARGUMENT where READY = 0, with no effect (R22, R161). -/
def whenReady (s : State TCfg TErr) (k : State TCfg TErr → Part TCfg TErr) : Part TCfg TErr :=
  if s.ready then k s else .done s .invalid

/-! ### The transport port -/

/-- The next answer to an `Acquire` (R44), from the queue or else a free value, and what then is left of queue and
counter. -/
def takeAcq (tcfg : TCfg) (queue : List (AcqAnswer TErr)) (draws : Nat) :
    AcqAnswer TErr × List (AcqAnswer TErr) × Nat :=
  match queue with
  | ans :: rest => (ans, rest, draws)
  | [] => (acqDraw draws tcfg, [], draws + 1)

/-- The next answer to an `Xfer` (R44), from the queue or else a free value, and what then is left of queue and
counter. -/
def takeXfer (out : Bytes) (queue : List (XferAnswer TErr)) (draws : Nat) :
    XferAnswer TErr × List (XferAnswer TErr) × Nat :=
  match queue with
  | ans :: rest => (ans, rest, draws)
  | [] => (xferDraw draws out, [], draws + 1)

/-- The transport's answer to an `Acquire`, and the state with the inputs moved on (R44). -/
def acqAnswer (tcfg : TCfg) (s : State TCfg TErr) : AcqAnswer TErr × State TCfg TErr :=
  ((takeAcq tcfg s.acqAnswers s.draws).1,
    { s with
      acqAnswers := (takeAcq tcfg s.acqAnswers s.draws).2.1
      draws := (takeAcq tcfg s.acqAnswers s.draws).2.2 })

/-- The transport's answer to an `Xfer`, and the state with the inputs moved on (R44). -/
def xferAnswer (out : Bytes) (s : State TCfg TErr) : XferAnswer TErr × State TCfg TErr :=
  ((takeXfer out s.xferAnswers s.draws).1,
    { s with
      xferAnswers := (takeXfer out s.xferAnswers s.draws).2.1
      draws := (takeXfer out s.xferAnswers s.draws).2.2 })

/-- The bytes an exchange of this length clocks in (R42: exactly `n` bytes). -/
def inBytes (n : XferLen) (b0 b1 b2 b3 : Byte) : Bytes :=
  match n with
  | .two => .two b0 b1
  | .four => .four b0 b1 b2 b3

/-- `Acquire(tcfg)` (R41, R58). -/
def acquire (tcfg : TCfg) (s : State TCfg TErr) : Flow TCfg TErr (AcqResult TErr) :=
  let s1 := (acqAnswer tcfg s).2
  match (acqAnswer tcfg s).1 with
  | .ok => .done (s1.emit (.acq tcfg .ok)) .ok
  | .err e => .done (s1.emit (.acq tcfg (.err e))) (.err e)
  | .never => .hung (s1.wait (.acquire tcfg))

/-- `Xfer(out, n)` with `n` the length of `out` (R42, R58). -/
def xfer (out : Bytes) (s : State TCfg TErr) : Flow TCfg TErr (XferResult TErr) :=
  let s1 := (xferAnswer out s).2
  match (xferAnswer out s).1 with
  | .ok b0 b1 b2 b3 =>
    let inb := inBytes out.len b0 b1 b2 b3
    .done (s1.emit (.xfer out (.ok inb))) (.ok inb)
  | .err e => .done (s1.emit (.xfer out (.err e))) (.err e)
  | .never => .hung (s1.wait (.xfer out))

/-- `Release()` (R43). -/
def release (s : State TCfg TErr) : State TCfg TErr := s.emit .rel

/-! ### The transaction primitive -/

/-- The response of a successful `Transact`: the sample where asked for, the confirmed configuration where asked for and
readback was active before the transfer (R110 steps 5 and 6). -/
def transactResponse (v : BitVec 2) (wc ws rbActive : Bool) (inb : Bytes) : Response TErr :=
  { status := .ok
    err := none
    sv := ws
    sample := if ws then decodeSample v inb else 0#16
    cv := wc && rbActive
    cfg := if wc && rbActive then unpackCfg (echoWord v inb) else 0#13 }

/-- `Transact(cwe, c, wc, ws)` (R110): one exchange; on failure nothing else happens (R111). -/
def transact (cwe : Bool) (c : RegisterConfig) (wc ws : Bool) (s : State TCfg TErr) : Part TCfg TErr :=
  (xfer (outBytes cwe c (xferLen wc (rbAct s))) s).andThen fun s1 r =>
    match r with
    | .err e => .done s1 (.transport e)
    | .ok inb => .done (s1.advance cwe c) (transactResponse s.v wc ws (rbAct s) inb)

/-! ### Fetching an input -/

/-- An illegal command word: INVALID_ARGUMENT, no effect, whatever READY is (R82). -/
def illegalCommand (s : State TCfg TErr) : Outcome TCfg TErr := .next (s.respond .invalid)

/-- The input that step takes next: none while the engine waits on the transport (R58) or nothing is at the port. -/
def nextInput (s : State TCfg TErr) : Option (Input TCfg × State TCfg TErr) :=
  match s.waiting, s.port with
  | none, x :: rest => some (x, s.accept rest)
  | none, [] => none
  | some _, _ => none

/-- One step, the commands run by `run`. A command is sampled, decoded and run to its response; an illegal word answers
INVALID_ARGUMENT (R82). With nothing at the port the engine stays idle (R190); an engine that waits on the transport
goes on waiting (R58). -/
def stepWith (run : Instr TCfg → State TCfg TErr → Outcome TCfg TErr) (s : State TCfg TErr) : Outcome TCfg TErr :=
  match nextInput s with
  | none => .next s
  | some (.hostWrite i v, s1) => .next (s1.hostWrite i v)
  | some (.reset, s1) => .next s1.hardwareReset
  | some (.command c, s1) =>
    match decode c.word c.tcfg with
    | .ok i => run i s1
    | .error _ => illegalCommand s1

/-- The command word of a table row put where the next input is taken, the engine idle so that it is taken. -/
def placeCommand (s : State) (w : CommandWord) : State :=
  { s with port := .command ⟨w, noTcfg⟩ :: s.port, waiting := none }

end Sys2Proof.Machine
end

