-- ==== Sys2Proof/Machine/BulkRead.lean ====
section
/-! DEFINITION. The command BULK_READ (spec 42_bulk_read R140 to R143). -/

namespace Sys2Proof.Machine

variable {TCfg TErr : Type}

/-- The loop of BULK_READ: `n` more samples, the next one to `DST[i]`; the first failure ends it (R140, R141). -/
def bulkLoop : Nat → Nat → State TCfg TErr → Part TCfg TErr
  | 0, _, s => .done s .okPlain
  | n + 1, i, s =>
    (transact false zeroConfig false true s).andThen fun s1 r =>
      if r.status = .ok then bulkLoop n (i + 1) (s1.writeDst i r.sample) else .done s1 r.statusOnly

/-- BULK_READ(DV, COUNT): the destination check comes before the count and holds for COUNT = 0 too (R140, R142). -/
def execBulkRead (dv : Bool) (count : BitVec 16) (s : State TCfg TErr) : Outcome TCfg TErr :=
  (whenReady s fun s0 => if dv then bulkLoop count.toNat 0 s0 else .done s0 .invalid).finish

end Sys2Proof.Machine
end

