-- ==== Sys2Proof/Machine/ConfigOps.lean ====
section
/-! DEFINITION. The commands WRITE_CONFIG and READ_CONFIG (spec 41_config_ops R130 to R136). -/

namespace Sys2Proof.Machine

variable {TCfg TErr : Type}

/-- WRITE_CONFIG(CFG): one `Transact(1, CFG, 0, 0)`, of which the status and the error are returned (R130). -/
def execWriteConfig (cfg : RegisterConfig) (s : State TCfg TErr) : Outcome TCfg TErr :=
  (whenReady s fun s0 => (transact true cfg false false s0).statusOnly).finish

/-- A confirmation-only read: the short path, and step (c) of the long path (R132, R133). -/
def confirmRead (s : State TCfg TErr) : Part TCfg TErr := transact false zeroConfig true false s

/-- READ_CONFIG's long path (R134): the copy of `A` is taken once, here. -/
def readConfigLong (s : State TCfg TErr) : Part TCfg TErr :=
  (transact true (withRb s.a true) false false s).onOk fun s1 _ =>
    (transact true (withRb s.a false) false false s1).onOk fun s2 _ => confirmRead s2

/-- READ_CONFIG(): the short path where `A.rb = 1` at entry, else the long one (R132). -/
def execReadConfig (s : State TCfg TErr) : Outcome TCfg TErr :=
  (whenReady s fun s0 => if rbAct s0 then confirmRead s0 else readConfigLong s0).finish

end Sys2Proof.Machine
end

