-- ==== Sys2Proof/Machine/Lifecycle.lean ====
section
/-! DEFINITION. The commands INIT and TEARDOWN (spec 43_lifecycle R150 to R155). -/

namespace Sys2Proof.Machine

open Sys2Proof.Config

variable {TCfg TErr : Type}

/-- Steps 5 and 6 of INIT share this: on a failed transfer the transport is released and the failure returned (R150,
R151, R169). -/
def orRelease (f : Part TCfg TErr) (k : State TCfg TErr → Part TCfg TErr) : Part TCfg TErr :=
  f.andThen fun s r => if r.status = .ok then k s else .done (release s) r.statusOnly

/-- Steps 5 to 7 of INIT, the transport held: write the configuration, one conversion-only cycle, READY (R150). -/
def initTransfers (cfg : RegisterConfig) (s : State TCfg TErr) : Part TCfg TErr :=
  orRelease (transact true cfg false false s) fun s1 =>
    orRelease (transact false zeroConfig false false s1) fun s2 => .done (s2.setReady true) .okPlain

/-- Steps 3 to 7 of INIT: allocate, acquire, transfer (R150). -/
def initAllocated (vtag : BitVec 8) (cfg : RegisterConfig) (tcfg : TCfg) (s : State TCfg TErr) : Part TCfg TErr :=
  (acquire tcfg (s.allocate vtag)).andThen fun s1 r =>
    match r with
    | .err e => .done s1 (.transport e)
    | .ok => initTransfers cfg s1

/-- INIT(VTAG, CFG, tcfg): the tag check first, then the check that the one handle is free (R150 to R152). -/
def execInit (vtag : BitVec 8) (cfg : RegisterConfig) (tcfg : TCfg) (s : State TCfg TErr) : Outcome TCfg TErr :=
  (if 3 < vtag.toNat then Flow.done s .invalid
    else if s.ready then .done s .allocation
    else initAllocated vtag cfg tcfg s).finish

/-- TEARDOWN(): release the transport and the handle; INVALID_ARGUMENT and no release without a handle (R153). -/
def execTeardown (s : State TCfg TErr) : Outcome TCfg TErr :=
  (whenReady s fun s0 => .done ((release s0).setReady false) .okPlain).finish

end Sys2Proof.Machine
end

