-- ==== Sys2Proof/Machine/Transact.lean ====
section
/-! DEFINITION. The command TRANSACT (spec 40_transact R112). -/

namespace Sys2Proof.Machine

variable {TCfg TErr : Type}

/-- TRANSACT(CWE, WC, WS, CFG): the primitive, where READY = 1 (R112). -/
def execTransact (cwe wc ws : Bool) (cfg : RegisterConfig) (s : State TCfg TErr) : Outcome TCfg TErr :=
  (whenReady s (transact cwe cfg wc ws)).finish

end Sys2Proof.Machine
end

