-- ==== Sys2Proof/Machine/Dispatch.lean ====
section
/-! DEFINITION. One arm per constructor of Instr, each one direct call of its meaning (spec 30_encoding R71). -/

namespace Sys2Proof.Machine

def exec (i : Instr) (s : State) : Host.Outcome State Fault Refusal :=
  match i with
  | .transact cwe wc ws cfg => Sys2Proof.Machine.execTransact cwe wc ws cfg s
  | .writeConfig cfg => Sys2Proof.Machine.execWriteConfig cfg s
  | .readConfig => Sys2Proof.Machine.execReadConfig s
  | .bulkRead dv count => Sys2Proof.Machine.execBulkRead dv count s
  | .init vtag cfg tcfg => Sys2Proof.Machine.execInit vtag cfg tcfg s
  | .teardown => Sys2Proof.Machine.execTeardown s

end Sys2Proof.Machine
end

