-- ==== Sys2Proof/Machine/Step.lean ====
section
/-! DEFINITION. One step: the idle engine takes the next input of its port and runs it to its end (spec 20_memory R52,
R56, R58, R60). -/

namespace Sys2Proof.Machine

/-- One step (R52, R58, R60, R82, R190): `stepWith`, the commands run by `exec`. -/
def step (s : State) : Host.Outcome State Fault Refusal := stepWith exec s

/-- `s` with the instruction of a table row as the next input of the port, so that the next step runs it (log entries 11
and 12). -/
def State.withFetchWord (s : State) (nbits w : Nat) : State := placeCommand s (tableWord nbits w)

end Sys2Proof.Machine
end

