-- ==== Sys2Proof/Machine/Parametric.lean ====
section
/-! DEFINITION. The machine for any types of transport configurations and errors: R7 leaves both OPEN,
"a type argument of the model". `exec` and `step`, whose types the host fixes, are these at the types of Config (Laws/Parametric.lean). -/

namespace Sys2Proof.Machine

/-- The meaning of a command, for any TCfg and TErr (R7, D15, D27). -/
def execOf {TCfg TErr : Type} (i : Instr TCfg) (s : State TCfg TErr) : Outcome TCfg TErr :=
  match i with
  | .transact cwe wc ws cfg => execTransact cwe wc ws cfg s
  | .writeConfig cfg => execWriteConfig cfg s
  | .readConfig => execReadConfig s
  | .bulkRead dv count => execBulkRead dv count s
  | .init vtag cfg tcfg => execInit vtag cfg tcfg s
  | .teardown => execTeardown s

/-- One step, for any TCfg and TErr. -/
def stepOf {TCfg TErr : Type} (s : State TCfg TErr) : Outcome TCfg TErr := stepWith execOf s

/-- The machine with its two type arguments. -/
def coreOf (TCfg TErr : Type) : Host.Core where
  State := State TCfg TErr
  Fault := Fault
  Refusal := Refusal
  step := stepOf
  reset := State.resetOf TCfg TErr

end Sys2Proof.Machine
end

