-- ==== Sys2Proof/Safety.lean ====
section
/-! DEFINITION. The terms claims use: the trace and the responses, who holds the transport, the shadow replayed from the
trace, well-formed responses, and the invariants of a run (spec 10_state R26, R33, 20_memory R45, R48, 30_encoding R80,
43_lifecycle R154). -/

namespace Sys2Proof.Machine

open Sys2Proof.Config

variable {TCfg TErr : Type}

/-- The transport events, which make up the trace (R45). -/
def Event.isTransport : Event TCfg TErr → Bool
  | .acq _ _ => true
  | .xfer _ _ => true
  | .rel => true
  | .dstWrite _ _ => false
  | .resp _ => false
  | .hwReset => false

/-- The trace of a log (R45). -/
def traceOf (log : List (Event TCfg TErr)) : List (Event TCfg TErr) := log.filter Event.isTransport

/-- The trace: what the engine did to the transport, in order (R45). -/
def State.trace (s : State TCfg TErr) : List (Event TCfg TErr) := traceOf s.log

/-- The response an event delivers, if it is one. -/
def Event.response? : Event TCfg TErr → Option (Response TErr)
  | .resp r => some r
  | .acq _ _ => none
  | .xfer _ _ => none
  | .rel => none
  | .dstWrite _ _ => none
  | .hwReset => none

/-- The list of responses, in order (R60). -/
def State.responses (s : State TCfg TErr) : List (Response TErr) := s.log.filterMap Event.response?

/-- Who holds the transport after one more event (R41, R43, R154): none once an event came that may not come there. After
a hardware reset the engine holds nothing (R191). -/
def linkStep (held : Option Bool) (e : Event TCfg TErr) : Option Bool :=
  match held, e with
  | none, _ => none
  | some true, .acq _ _ => none
  | some false, .acq _ .ok => some true
  | some false, .acq _ (.err _) => some false
  | some true, .xfer _ _ => some true
  | some false, .xfer _ _ => none
  | some true, .rel => some false
  | some false, .rel => none
  | some _, .hwReset => some false
  | some h, .dstWrite _ _ => some h
  | some h, .resp _ => some h

/-- Whether the engine holds the transport after these events; none where they break the protocol of R154. -/
def linkHeld (log : List (Event TCfg TErr)) : Option Bool := log.foldl linkStep (some false)

/-- What the engine should hold by its registers: the transport exactly while READY = 1, or inside an INIT after its
Acquire (R20). -/
def State.holds (s : State TCfg TErr) : Bool :=
  match s.waiting with
  | none => s.ready
  | some (.acquire _) => false
  | some (.xfer _) => true

/-- LINK INVARIANT: the trace keeps the protocol of R154, and the transport is held just when the registers say so. -/
def LinkInv (s : State TCfg TErr) : Prop := linkHeld s.log = some s.holds

/-- The configuration that outbound bytes write, if they write one: the write-enable bit is bit 15 of the word (R78). -/
def writtenConfig (out : Bytes) : Option RegisterConfig :=
  if (raw16 out).getLsbD 15 then some (unpackCfg ((raw16 out).extractLsb' 2 14)) else none

/-- The shadow (P, A) after one more event, by R26 and R32: a successful exchange shifts P into A and loads P with what
the exchange wrote, if anything; INIT's allocation, which comes just before its Acquire, and reset leave ZERO. -/
def shadowStep (pa : RegisterConfig × RegisterConfig) (e : Event TCfg TErr) : RegisterConfig × RegisterConfig :=
  match e with
  | .acq _ _ => (zeroConfig, zeroConfig)
  | .hwReset => (zeroConfig, zeroConfig)
  | .xfer out (.ok _) => ((writtenConfig out).getD pa.1, pa.1)
  | .xfer _ (.err _) => pa
  | .rel => pa
  | .dstWrite _ _ => pa
  | .resp _ => pa

/-- The shadow replayed from a log. -/
def shadowOf (log : List (Event TCfg TErr)) : RegisterConfig × RegisterConfig :=
  log.foldl shadowStep (zeroConfig, zeroConfig)

/-- SHADOW INVARIANT (R26, R168): the shadow is what the successful exchanges since INIT's allocation make it, and
nothing else; while an INIT waits on its Acquire both slots are ZERO. -/
def ShadowInv (s : State TCfg TErr) : Prop :=
  match s.waiting with
  | some (.acquire _) => s.p = zeroConfig ∧ s.a = zeroConfig
  | none => (s.p, s.a) = shadowOf s.log
  | some (.xfer _) => (s.p, s.a) = shadowOf s.log

/-- A response as R80 describes it: no result beside an error, 0 in a field that is not valid, and an error value
exactly with TRANSPORT_FAILURE. -/
def Response.wf (r : Response TErr) : Bool :=
  (r.status == .ok || (!r.sv && !r.cv)) && (r.sv || r.sample == 0#16) && (r.cv || r.cfg == 0#13) &&
    (r.err.isSome == (r.status == .transportFailure))

/-- An event as the rules describe it: a well-formed response (R80), as many bytes in as out (R42), a DST index that
exists (R48). -/
def Event.wf : Event TCfg TErr → Bool
  | .acq _ _ => true
  | .xfer out (.ok inb) => out.len == inb.len
  | .xfer _ (.err _) => true
  | .rel => true
  | .dstWrite i _ => decide (i < 65536)
  | .resp r => r.wf
  | .hwReset => true

/-- EVENT INVARIANT: everything observed is as the rules describe it. -/
def EventInv (s : State TCfg TErr) : Prop := s.log.all Event.wf = true

/-- IDLE INVARIANT (R29): the sequencer step is 0 between commands. -/
def IdleInv (s : State TCfg TErr) : Prop := s.waiting = none → s.seqStep = 0

/-- DST INVARIANT (R48): the canonical form. -/
def DstInv (s : State TCfg TErr) : Prop := dstWf s.dst = true

/-- How many exchanges have succeeded since the last successful Acquire (R11: T1, T2, ...). -/
def transferCount (log : List (Event TCfg TErr)) : Nat :=
  log.foldl (fun n e =>
    match e with
    | .acq _ .ok => 0
    | .xfer _ (.ok _) => n + 1
    | .acq _ (.err _) => n
    | .xfer _ (.err _) => n
    | .rel => n
    | .dstWrite _ _ => n
    | .resp _ => n
    | .hwReset => n) 0

/-- The length of an event's exchange, if it is one. -/
def Event.xferLen? : Event TCfg TErr → Option XferLen
  | .xfer out _ => some out.len
  | .acq _ _ => none
  | .rel => none
  | .dstWrite _ _ => none
  | .resp _ => none
  | .hwReset => none

/-- The lengths of the exchanges among some events, in order (R206). -/
def xferLens (evs : List (Event TCfg TErr)) : List XferLen := evs.filterMap Event.xferLen?

/-- How often `Acquire` was asked among some events (R206). -/
def acqCount (evs : List (Event TCfg TErr)) : Nat :=
  evs.countP fun e => match e with
    | .acq _ _ => true
    | .xfer _ _ => false
    | .rel => false
    | .dstWrite _ _ => false
    | .resp _ => false
    | .hwReset => false

/-- How often the transport was released among some events (R206). -/
def relCount (evs : List (Event TCfg TErr)) : Nat :=
  evs.countP fun e => match e with
    | .rel => true
    | .acq _ _ => false
    | .xfer _ _ => false
    | .dstWrite _ _ => false
    | .resp _ => false
    | .hwReset => false

/-- The transport error an event carries, if it is a failed `Acquire` or a failed exchange (R163). -/
def Event.error? : Event TCfg TErr → Option TErr
  | .acq _ (.err e) => some e
  | .xfer _ (.err e) => some e
  | .acq _ .ok => none
  | .xfer _ (.ok _) => none
  | .rel => none
  | .dstWrite _ _ => none
  | .resp _ => none
  | .hwReset => none

/-- The transport's answers to these requests, asked one after the other from `s` on (R44). -/
def nextAnswers : List Bytes → State TCfg TErr → List (XferAnswer TErr)
  | [], _ => []
  | out :: rest, s => (xferAnswer out s).1 :: nextAnswers rest (xferAnswer out s).2

/-- `s` with the inputs moved on past these requests, and nothing else changed (R44). -/
def afterAnswers : List Bytes → State TCfg TErr → State TCfg TErr
  | [], s => s
  | out :: rest, s => afterAnswers rest (xferAnswer out s).2

/-- The bytes of a conversion-only exchange of 2 bytes: `00 00` (R101, R140). -/
def zeroBytes : Bytes := .two 0#8 0#8

/-- Four bytes a transport may answer with. -/
structure InFrame where
  b0 : Byte
  b1 : Byte
  b2 : Byte
  b3 : Byte
deriving DecidableEq, Repr

/-- The answer of a successful exchange. -/
def InFrame.answer (f : InFrame) : XferAnswer TErr := .ok f.b0 f.b1 f.b2 f.b3

/-- What an exchange of 2 bytes takes of it. -/
def InFrame.two (f : InFrame) : Bytes := .two f.b0 f.b1

/-- What an exchange of 4 bytes takes of it. -/
def InFrame.four (f : InFrame) : Bytes := .four f.b0 f.b1 f.b2 f.b3

/-- The events of successful samples of a BULK_READ from index `i` on: each exchange, then its DST write (R53, R140). -/
def bulkEvents (v : BitVec 2) : Nat → List InFrame → List (Event TCfg TErr)
  | _, [] => []
  | i, f :: rest =>
    .xfer zeroBytes (.ok f.two) :: .dstWrite i (decodeSample v f.two) :: bulkEvents v (i + 1) rest

/-- What DST reads as at `j` once the samples of `frames` have been written from index 0 on (R140, R141). -/
def bulkDst (v : BitVec 2) (frames : List InFrame) (old : Dst) (j : Nat) : Option Word16 :=
  match frames[j]? with
  | some f => some (decodeSample v f.two)
  | none => dstRead old j

/-- The exchanges a successful command makes, by R206. -/
def costOf (i : Instr TCfg) (s : State TCfg TErr) : List XferLen :=
  match i with
  | .transact _ wc _ _ => if wc && rb s.a then [.four] else [.two]
  | .writeConfig _ => [.two]
  | .readConfig => if rb s.a then [.four] else [.two, .two, .four]
  | .bulkRead _ count => List.replicate count.toNat .two
  | .init _ _ _ => [.two, .two]
  | .teardown => []

/-! ### Other types of transport configurations and errors (R7)

What a machine with one pair of type arguments looks like with another: every transport configuration sent through `f`,
every error through `g`, all else as it is. -/

section
variable {TCfg' TErr' : Type} (f : TCfg → TCfg') (g : TErr → TErr')

def AcqAnswer.mapErr : AcqAnswer TErr → AcqAnswer TErr'
  | .ok => .ok
  | .err e => .err (g e)
  | .never => .never

def XferAnswer.mapErr : XferAnswer TErr → XferAnswer TErr'
  | .ok b0 b1 b2 b3 => .ok b0 b1 b2 b3
  | .err e => .err (g e)
  | .never => .never

def AcqResult.mapErr : AcqResult TErr → AcqResult TErr'
  | .ok => .ok
  | .err e => .err (g e)

def XferResult.mapErr : XferResult TErr → XferResult TErr'
  | .ok inb => .ok inb
  | .err e => .err (g e)

def Response.mapErr (r : Response TErr) : Response TErr' :=
  ⟨r.status, r.err.map g, r.sv, r.sample, r.cv, r.cfg⟩

def Event.mapTypes : Event TCfg TErr → Event TCfg' TErr'
  | .acq tcfg result => .acq (f tcfg) (AcqResult.mapErr g result)
  | .xfer out result => .xfer out (XferResult.mapErr g result)
  | .rel => .rel
  | .dstWrite i v => .dstWrite i v
  | .resp r => .resp (r.mapErr g)
  | .hwReset => .hwReset

def Request.mapCfg : Request TCfg → Request TCfg'
  | .acquire tcfg => .acquire (f tcfg)
  | .xfer out => .xfer out

def Input.mapCfg : Input TCfg → Input TCfg'
  | .command c => .command ⟨c.word, f c.tcfg⟩
  | .hostWrite i v => .hostWrite i v
  | .reset => .reset

/-- A command with its side operand sent through `f`. -/
def mapInstr : Instr TCfg → Instr TCfg'
  | .transact cwe wc ws cfg => .transact cwe wc ws cfg
  | .writeConfig cfg => .writeConfig cfg
  | .readConfig => .readConfig
  | .bulkRead dv count => .bulkRead dv count
  | .init vtag cfg tcfg => .init vtag cfg (f tcfg)
  | .teardown => .teardown

/-- A state with every transport configuration and every error in it sent through `f` and `g`. -/
def State.mapTypes (s : State TCfg TErr) : State TCfg' TErr' where
  v := s.v
  ready := s.ready
  p := s.p
  a := s.a
  seqStep := s.seqStep
  dst := s.dst
  port := s.port.map (Input.mapCfg f)
  acqAnswers := s.acqAnswers.map (AcqAnswer.mapErr g)
  xferAnswers := s.xferAnswers.map (XferAnswer.mapErr g)
  draws := s.draws
  waiting := s.waiting.map (Request.mapCfg f)
  log := s.log.map (Event.mapTypes f g)

end

end Sys2Proof.Machine
end

