-- ==== Sys2Proof/Certificates/Slice0/Obligations.lean ====
section
/-! DEFINITION. The statements for the provers, one `def Obligations.<Name> : Prop` each, from the numbered rules of
spec/. -/

open Sys2Proof Sys2Proof.Machine Sys2Proof.Config

/-! ### The pure functions of 40_transact -/

/-- R100. `PackCfg`: bit by bit, as arithmetic, injective, and the rule's three examples. -/
def Obligations.PackCfgPlacesEveryField : Prop :=
  (∀ c : RegisterConfig,
    (packCfg c).getLsbD 15 = true ∧
    (packCfg c).extractLsb' 12 3 = c.extractLsb' 10 3 ∧
    (packCfg c).extractLsb' 9 3 = c.extractLsb' 7 3 ∧
    (packCfg c).getLsbD 8 = c.getLsbD 6 ∧
    (packCfg c).extractLsb' 5 3 = c.extractLsb' 3 3 ∧
    (packCfg c).extractLsb' 3 2 = c.extractLsb' 1 2 ∧
    (packCfg c).getLsbD 2 = !c.getLsbD 0 ∧
    (packCfg c).extractLsb' 0 2 = 0#2) ∧
  (∀ c : RegisterConfig,
    (packCfg c).toNat = 0x8000 + ((c.toNat &&& 0x1FFE) <<< 2) + ((1 - c.toNat % 2) <<< 2)) ∧
  (∀ c d : RegisterConfig, packCfg c = packCfg d → c = d) ∧
  packCfg 0x0000#13 = 0x8004#16 ∧ packCfg 0x1FFF#13 = 0xFFF8#16 ∧ packCfg 0x19CD#13 = 0xE730#16

/-- R101. The bytes of an exchange: the word big-endian, the word of a conversion-only exchange all zero, the last
two bytes of four 0; and what the word writes can be read back from the bytes. -/
def Obligations.OutBytesCarryTheWrittenConfig : Prop :=
  ∀ (cwe : Bool) (c : RegisterConfig) (n : XferLen),
    (outBytes cwe c n).len = n ∧
    raw16 (outBytes cwe c n) = (if cwe then packCfg c else 0#16) ∧
    (∀ b0 b1 b2 b3, outBytes cwe c n = .four b0 b1 b2 b3 → b2 = 0#8 ∧ b3 = 0#8) ∧
    writtenConfig (outBytes cwe c n) = if cwe then some c else none

/-- R103, R104. `Raw16` and `DecodeSample`: the signed value of the first two bytes, divided by 4 truncating toward zero for
the 14-bit variant, its range, and the rule's examples. -/
def Obligations.SampleDecoder : Prop :=
  (∀ (b0 b1 b2 b3 : Byte),
    raw16 (.two b0 b1) = b0 ++ b1 ∧ raw16 (.four b0 b1 b2 b3) = b0 ++ b1) ∧
  (∀ (v : BitVec 2) (inb : Bytes), v ≠ 2#2 → (decodeSample v inb).toInt = (raw16 inb).toInt) ∧
  (∀ inb : Bytes,
    (decodeSample 2#2 inb).toInt = (raw16 inb).toInt.tdiv 4 ∧
    -8192 ≤ (decodeSample 2#2 inb).toInt ∧ (decodeSample 2#2 inb).toInt ≤ 8191) ∧
  decodeSample 2#2 (.two 0xFF#8 0xFC#8) = BitVec.ofInt 16 (-1) ∧
  decodeSample 2#2 (.two 0xFF#8 0xFB#8) = BitVec.ofInt 16 (-1) ∧
  decodeSample 0#2 (.two 0xFF#8 0xFB#8) = BitVec.ofInt 16 (-5)

/-- The arithmetic laws (a) to (e) of R105, of the 14-bit variant's sample `q` of a raw value `x`: the unique quotient
whose remainder has the sign of `x`, the two shift forms, the difference from the arithmetic right shift, the ends of the
range, and what gives 0. -/
def Obligations.SampleScalingTruncatesTowardZero : Prop :=
  (∀ inb : Bytes,
    let x := (raw16 inb).toInt
    let q := (decodeSample 2#2 inb).toInt
    (∀ q' : Int, q' = q ↔ ∃ r : Int, x = 4 * q' + r ∧ -4 < r ∧ r < 4 ∧ (0 < r → 0 < x) ∧ (r < 0 → x < 0)) ∧
    (0 ≤ x → q = x >>> 2) ∧
    (x < 0 → q = -((-x) >>> 2) ∧ q = (x + 3) >>> 2) ∧
    q = ((raw16 inb).sshiftRight 2).toInt + (if x < 0 ∧ (raw16 inb).extractLsb' 0 2 ≠ 0#2 then 1 else 0) ∧
    (q = 0 ↔ -3 ≤ x ∧ x ≤ 3)) ∧
  (decodeSample 2#2 (.two 0x80#8 0x00#8)).toInt = -8192 ∧ (decodeSample 2#2 (.two 0x7F#8 0xFF#8)).toInt = 8191

/-- R102, R109 (tier 1). The truth table of the length rule, and the shadow's shift with and without a new
configuration. -/
def Obligations.LengthRuleAndAdvance : Prop :=
  (xferLen false false = .two ∧ xferLen false true = .two ∧ xferLen true false = .two ∧ xferLen true true = .four) ∧
  (∀ p a c : RegisterConfig, advanceSlots p a true c = (c, p) ∧ advanceSlots p a false c = (p, p))

/-- R106. `EchoWord` as a slice of the frame and as arithmetic on the bytes, with the rule's examples. -/
def Obligations.EchoWindowArithmetic : Prop :=
  (∀ (v : BitVec 2) (b0 b1 b2 b3 : Byte),
    echoWord v (.four b0 b1 b2 b3) = (b0 ++ b1 ++ b2 ++ b3).extractLsb' (if v = 2#2 then 4 else 2) 14) ∧
  (∀ b0 b1 b2 b3 : Byte,
    (echoWord 2#2 (.four b0 b1 b2 b3)).toNat =
      (((b1.toNat &&& 3) <<< 12) ||| (b2.toNat <<< 4)) ||| (b3.toNat >>> 4)) ∧
  (∀ (v : BitVec 2) (b0 b1 b2 b3 : Byte), v ≠ 2#2 →
    (echoWord v (.four b0 b1 b2 b3)).toNat = ((b2.toNat <<< 8) ||| b3.toNat) >>> 2) ∧
  echoWord 0#2 (.four 0x12#8 0x34#8 0xE7#8 0x30#8) = 0x39CC#14 ∧
  echoWord 2#2 (.four 0x04#8 0x8F#8 0x9C#8 0xC0#8) = 0x39CC#14

/-- R107. `UnpackCfg`: field by field, bit 13 not read, and the rule's examples. -/
def Obligations.UnpackCfgReadsEveryField : Prop :=
  (∀ e : BitVec 14,
    incc (unpackCfg e) = e.extractLsb' 10 3 ∧ inx (unpackCfg e) = e.extractLsb' 7 3 ∧
    bw (unpackCfg e) = e.extractLsb' 6 1 ∧ ref (unpackCfg e) = e.extractLsb' 3 3 ∧
    seq (unpackCfg e) = e.extractLsb' 1 2 ∧ rb (unpackCfg e) = !e.getLsbD 0 ∧
    unpackCfg e = e.extractLsb' 1 12 ++ BitVec.ofBool (!e.getLsbD 0)) ∧
  (∀ e e' : BitVec 14, e.extractLsb' 0 13 = e'.extractLsb' 0 13 → unpackCfg e = unpackCfg e') ∧
  unpackCfg 0x39CC#14 = 0x19CD#13 ∧ unpackCfg 0x19CC#14 = 0x19CD#13

/-- R108. The round trip through the wire, for every configuration and every variant. -/
def Obligations.PackUnpackRoundTrip : Prop :=
  (∀ c : RegisterConfig, unpackCfg ((packCfg c).extractLsb' 2 14) = c) ∧
  (∀ (v : BitVec 2) (c : RegisterConfig) (b0 b1 b2 b3 : Byte), v ≠ 2#2 → b2 ++ b3 = packCfg c →
    unpackCfg (echoWord v (.four b0 b1 b2 b3)) = c) ∧
  (∀ (c : RegisterConfig) (b0 b1 b2 b3 : Byte),
    (frame (.four b0 b1 b2 b3)).extractLsb' 4 14 = (packCfg c).extractLsb' 2 14 →
    unpackCfg (echoWord 2#2 (.four b0 b1 b2 b3)) = c)

/-- The 14-bit variant's shared bits, the inference that R113 marks [derived]: what the sample is in terms of the data field `d` and the two bits `t` after
it, and that in a 4-byte exchange `t` is the top of the echo; the rule's two examples. -/
def Obligations.SharedBitsOfTheFourteenBitVariant : Prop :=
  (∀ inb : Bytes,
    let d := ((raw16 inb).extractLsb' 2 14).toInt
    let t := (raw16 inb).extractLsb' 0 2
    (decodeSample 2#2 inb).toInt = if 0 ≤ d ∨ t = 0#2 then d else d + 1) ∧
  (∀ b0 b1 b2 b3 : Byte,
    (echoWord 2#2 (.four b0 b1 b2 b3)).extractLsb' 12 2 = (raw16 (.four b0 b1 b2 b3)).extractLsb' 0 2) ∧
  (∀ inb : Bytes, (raw16 inb).extractLsb' 2 14 = 0x3FFF#14 → (raw16 inb).extractLsb' 0 2 = 3#2 →
    raw16 inb = 0xFFFF#16 ∧ decodeSample 2#2 inb = 0#16) ∧
  (∀ inb : Bytes, (raw16 inb).extractLsb' 2 14 = 0x2000#14 → (raw16 inb).extractLsb' 0 2 = 3#2 →
    raw16 inb = 0x8003#16 ∧ (decodeSample 2#2 inb).toInt = -8191)

/-! ### The command word (30_encoding) -/

/-- Tier 3. Decoding what the encoder gives is the instruction, for all six commands and every operand value (R70 to
R77). -/
def Obligations.DecodeEncode : Prop :=
  ∀ i : Instr, decode (encode i).word (encode i).tcfg = .ok i

/-- The other direction: a word that decodes is the word its instruction encodes to, bit for bit, and an INIT takes its
side operand from beside the word. -/
def Obligations.EncodeDecode : Prop :=
  ∀ (w : CommandWord) (tcfg : TCfg) (i : Instr), decode w tcfg = .ok i →
    encodeWord i = w ∧ ∀ vtag cfg tc, i = .init vtag cfg tc → tc = tcfg

/-- R72 to R76, R87. A word is a command exactly when `CW & mask = match` for that command, and then its operands are the
fields at the format's positions; a word that matches no row is illegal. -/
def Obligations.DecodeReadsTheFormats : Prop :=
  ∀ (w : CommandWord) (tcfg : TCfg),
    (w &&& 0xF1FFE000#32 = 0x00000000#32 ↔
      decode w tcfg = .ok (.transact (w.getLsbD 27) (w.getLsbD 26) (w.getLsbD 25) (w.extractLsb' 0 13))) ∧
    (w &&& 0xFFFFE000#32 = 0x10000000#32 ↔ decode w tcfg = .ok (.writeConfig (w.extractLsb' 0 13))) ∧
    (w &&& 0xFFFFFFFF#32 = 0x20000000#32 ↔ decode w tcfg = .ok .readConfig) ∧
    (w &&& 0xF7FF0000#32 = 0x30000000#32 ↔ decode w tcfg = .ok (.bulkRead (w.getLsbD 27) (w.extractLsb' 0 16))) ∧
    (w &&& 0xF00FE000#32 = 0x40000000#32 ↔
      decode w tcfg = .ok (.init (w.extractLsb' 20 8) (w.extractLsb' 0 13) tcfg)) ∧
    (w &&& 0xFFFFFFFF#32 = 0x50000000#32 ↔ decode w tcfg = .ok .teardown) ∧
    (legalWord w = false ↔ ∃ e, decode w tcfg = .error e)

/-- R82. Which words are illegal, and what step does with one: INVALID_ARGUMENT, whatever READY is, and nothing else. -/
def Obligations.IllegalWordAnswersInvalidArgument : Prop :=
  (∀ (w : CommandWord) (tcfg : TCfg),
    (∃ e, decode w tcfg = .error e) ↔
      (6 ≤ (w.extractLsb' 28 4).toNat ∨
       (w.extractLsb' 28 4 = 0#4 ∧ w.extractLsb' 13 12 ≠ 0#12) ∨
       (w.extractLsb' 28 4 = 1#4 ∧ w.extractLsb' 13 15 ≠ 0#15) ∨
       (w.extractLsb' 28 4 = 2#4 ∧ w.extractLsb' 0 28 ≠ 0#28) ∨
       (w.extractLsb' 28 4 = 3#4 ∧ w.extractLsb' 16 11 ≠ 0#11) ∨
       (w.extractLsb' 28 4 = 4#4 ∧ w.extractLsb' 13 7 ≠ 0#7) ∨
       (w.extractLsb' 28 4 = 5#4 ∧ w.extractLsb' 0 28 ≠ 0#28))) ∧
  (∀ (s : State) (c : Command) (rest : List Input) (e : Illegal),
    s.waiting = none → s.port = .command c :: rest → decode c.word c.tcfg = .error e →
    step s = .next { s with
      port := rest, seqStep := 0,
      log := s.log ++ [.resp ⟨.invalidArgument, none, false, 0#16, false, 0#13⟩] })

/-- Tier 1. Words the spec writes out in R85 and R86, and what they stand for. -/
def Obligations.WordsOfTheSpecDecode : Prop :=
  ∀ t : TCfg,
    decode 0x0A0019CD#32 t = .ok (.transact true false true 0x19CD#13) ∧
    decode 0x00000000#32 t = .ok pseudoConv ∧
    decode 0x02000000#32 t = .ok pseudoSample ∧
    decode 0x04000000#32 t = .ok pseudoConfirm ∧
    decode 0x100019CD#32 t = .ok (.writeConfig 0x19CD#13) ∧
    decode 0x20000000#32 t = .ok .readConfig ∧
    decode 0x38000005#32 t = .ok (.bulkRead true 5#16) ∧
    decode 0x30000000#32 t = .ok (.bulkRead false 0#16) ∧
    decode 0x40201C40#32 t = .ok (.init 2#8 0x1C40#13 t) ∧
    decode 0x50000000#32 t = .ok .teardown

/-! ### One step -/

/-- Tier 1. Where the engine is idle and the next input is a command whose word decodes to `i`, a step is `exec i`, the
command taken from the port. -/
def Obligations.StepRunsTheDecodedInstruction : Prop :=
  ∀ (s : State) (c : Command) (rest : List Input) (i : Instr),
    s.waiting = none → s.port = .command c :: rest → decode c.word c.tcfg = .ok i →
    step s = exec i { s with port := rest }

/-- R190. Reset: UNINIT with every register zero, sequencer idle, and the engine waits for a command; and a hardware
reset of an idle engine leaves that, causes no transport event and does not touch DST. -/
def Obligations.HardwareResetLeavesUninit : Prop :=
  (State.reset.ready = false ∧ State.reset.v = 0#2 ∧ State.reset.p = 0#13 ∧ State.reset.a = 0#13 ∧
    State.reset.seqStep = 0 ∧ step State.reset = .next State.reset) ∧
  (∀ (s : State) (rest : List Input), s.waiting = none → s.port = .reset :: rest →
    ∃ t, step s = .next t ∧
      t.ready = false ∧ t.v = 0#2 ∧ t.p = 0#13 ∧ t.a = 0#13 ∧ t.seqStep = 0 ∧ t.waiting = none ∧
      t.trace = s.trace ∧ t.responses = s.responses ∧ t.dst = s.dst ∧
      t.port = rest ∧ t.acqAnswers = s.acqAnswers ∧ t.xferAnswers = s.xferAnswers ∧ t.draws = s.draws)

/-- Between commands the host may write one word of DST, and nothing else changes (R60 (b), R48; that such a write is an
input of the model's port is log entry 7). -/
def Obligations.HostWritesOneWordOfDst : Prop :=
  ∀ (s : State) (i : BitVec 16) (v : Word16) (rest : List Input),
    s.waiting = none → s.port = .hostWrite i v :: rest →
    ∃ d : Dst, step s = .next { s with port := rest, dst := d } ∧
      ∀ j, dstRead d j = if j = i.toNat then some v else dstRead s.dst j

/-- R58. A command whose transport request is never answered never returns: it delivers no response, and however many
steps follow, nothing changes and no further command is accepted. -/
def Obligations.UnansweredCommandNeverReturns : Prop :=
  (∀ (i : Instr) (s t : State), s.waiting = none → exec i s = .next t → t.waiting ≠ none →
    t.responses = s.responses) ∧
  (∀ (s : State) (k : Nat), s.waiting ≠ none → Host.Core.run Sys2Proof.core k s = .next s)

/-! ### TRANSACT (40_transact R110 to R112) -/

/-- R110, R111, R112. TRANSACT. Where READY = 0: INVALID_ARGUMENT and nothing else. Where the exchange succeeds: the
exchange asked for, the shadow advanced, sample and echo decoded where asked for (the echo by `A.rb` before the transfer),
and nothing else changed. Where it fails: the shadow and every other register keep their values, nothing is decoded, and
the error comes back as it is. -/
def Obligations.TransactCommand : Prop :=
  ∀ (cwe wc ws : Bool) (cfg : RegisterConfig) (s : State),
    let n : XferLen := if wc && rb s.a then .four else .two
    let out := outBytes cwe cfg n
    (s.ready = false →
      exec (.transact cwe wc ws cfg) s = .next { s with
        seqStep := 0
        log := s.log ++ [.resp ⟨.invalidArgument, none, false, 0#16, false, 0#13⟩] }) ∧
    (∀ f : InFrame, s.ready = true → nextAnswers [out] s = [f.answer] →
      let inb := if wc && rb s.a then f.four else f.two
      exec (.transact cwe wc ws cfg) s = .next { afterAnswers [out] s with
        p := if cwe then cfg else s.p
        a := s.p
        seqStep := 0
        log := s.log ++ [.xfer out (.ok inb), .resp
          { status := .ok
            err := none
            sv := ws
            sample := if ws then decodeSample s.v inb else 0#16
            cv := wc && rb s.a
            cfg := if wc && rb s.a then unpackCfg (echoWord s.v inb) else 0#13 }] }) ∧
    (∀ e : TErr, s.ready = true → nextAnswers [out] s = [.err e] →
      exec (.transact cwe wc ws cfg) s = .next { afterAnswers [out] s with
        seqStep := 0
        log := s.log ++ [.xfer out (.err e), .resp ⟨.transportFailure, some e, false, 0#16, false, 0#13⟩] })

/-! ### WRITE_CONFIG and READ_CONFIG (41_config_ops) -/

/-- R130. WRITE_CONFIG. Where READY = 0: INVALID_ARGUMENT and nothing else. Otherwise one exchange of 2 bytes carrying
`PackCfg(CFG)`; on success `A <- P; P <- CFG`; on failure the shadow is unchanged and the error comes back as it is. -/
def Obligations.WriteConfigCommand : Prop :=
  ∀ (cfg : RegisterConfig) (s : State),
    let out := outBytes true cfg .two
    raw16 out = packCfg cfg ∧
    (s.ready = false →
      exec (.writeConfig cfg) s = .next { s with
        seqStep := 0
        log := s.log ++ [.resp ⟨.invalidArgument, none, false, 0#16, false, 0#13⟩] }) ∧
    (∀ f : InFrame, s.ready = true → nextAnswers [out] s = [f.answer] →
      exec (.writeConfig cfg) s = .next { afterAnswers [out] s with
        p := cfg
        a := s.p
        seqStep := 0
        log := s.log ++ [.xfer out (.ok f.two), .resp ⟨.ok, none, false, 0#16, false, 0#13⟩] }) ∧
    (∀ e : TErr, s.ready = true → nextAnswers [out] s = [.err e] →
      exec (.writeConfig cfg) s = .next { afterAnswers [out] s with
        seqStep := 0
        log := s.log ++ [.xfer out (.err e), .resp ⟨.transportFailure, some e, false, 0#16, false, 0#13⟩] })

/-- Write latency, the inference that R131 marks [derived]: after a WRITE_CONFIG that returned OK, `P = c` and `A` is the
old `P`; after one more successful TRANSACT of any form, `A = c`; where the old `P.rb = 0` that TRANSACT's exchange has 2
bytes, and where `c.rb = 1` a CONFIRM after it has 4. -/
def Obligations.WriteLatencyIsOneTransfer : Prop :=
  ∀ (c : RegisterConfig) (s t u : State) (evs evs' : List Event) (r r' : Response) (cwe wc ws : Bool)
    (c' : RegisterConfig),
    s.ready = true →
    exec (.writeConfig c) s = .next t → t.log = s.log ++ evs ++ [.resp r] → r.status = .ok →
    (t.p = c ∧ t.a = s.p) ∧
    (exec (.transact cwe wc ws c') t = .next u → u.log = t.log ++ evs' ++ [.resp r'] → r'.status = .ok →
      u.a = c ∧ (rb s.p = false → xferLens evs' = [.two]) ∧
      (rb c = true → ∀ out, out = outBytes false 0#13 .four → (∃ f : InFrame, nextAnswers [out] u = [f.answer]) →
        ∃ w, exec pseudoConfirm u = .next w ∧
          xferLens (w.log.drop u.log.length) = [.four]))

/-- R132, R133, R134. READ_CONFIG, every way it returns. Where READY = 0: INVALID_ARGUMENT and nothing else. Where `A.rb = 1`
at entry: one exchange of 4 zero bytes; on success the echo is returned and `A <- P`, on failure the shadow is unchanged.
Where `A.rb = 0` at entry: the two writes of the copy of `A` taken at entry, then the confirmation read; the first failure
ends the command with what the exchanges before it made of the shadow, and a command that succeeds ends with both slots
equal to the old `A`. -/
def Obligations.ReadConfigCommand : Prop :=
  ∀ s : State,
    let ca := withRb s.a true
    let out1 := outBytes true ca .two
    let out2 := outBytes true s.a .two
    let out3 : Bytes := .four 0#8 0#8 0#8 0#8
    let failed : TErr → Event := fun e => .resp ⟨.transportFailure, some e, false, 0#16, false, 0#13⟩
    (rb ca = true ∧ ca.extractLsb' 1 12 = s.a.extractLsb' 1 12) ∧
    (s.ready = false →
      exec .readConfig s = .next { s with
        seqStep := 0
        log := s.log ++ [.resp ⟨.invalidArgument, none, false, 0#16, false, 0#13⟩] }) ∧
    (∀ f : InFrame, s.ready = true → rb s.a = true → nextAnswers [out3] s = [f.answer] →
      exec .readConfig s = .next { afterAnswers [out3] s with
        a := s.p
        seqStep := 0
        log := s.log ++ [.xfer out3 (.ok f.four),
          .resp ⟨.ok, none, false, 0#16, true, unpackCfg (echoWord s.v f.four)⟩] }) ∧
    (∀ e : TErr, s.ready = true → rb s.a = true → nextAnswers [out3] s = [.err e] →
      exec .readConfig s = .next { afterAnswers [out3] s with
        seqStep := 0
        log := s.log ++ [.xfer out3 (.err e), failed e] }) ∧
    (∀ f g h : InFrame, s.ready = true → rb s.a = false →
      nextAnswers [out1, out2, out3] s = [f.answer, g.answer, h.answer] →
      exec .readConfig s = .next { afterAnswers [out1, out2, out3] s with
        p := s.a
        a := s.a
        seqStep := 0
        log := s.log ++ [.xfer out1 (.ok f.two), .xfer out2 (.ok g.two), .xfer out3 (.ok h.four),
          .resp ⟨.ok, none, false, 0#16, true, unpackCfg (echoWord s.v h.four)⟩] }) ∧
    (∀ e : TErr, s.ready = true → rb s.a = false → nextAnswers [out1] s = [.err e] →
      exec .readConfig s = .next { afterAnswers [out1] s with
        seqStep := 0
        log := s.log ++ [.xfer out1 (.err e), failed e] }) ∧
    (∀ (f : InFrame) (e : TErr), s.ready = true → rb s.a = false →
      nextAnswers [out1, out2] s = [f.answer, .err e] →
      exec .readConfig s = .next { afterAnswers [out1, out2] s with
        p := ca
        a := s.p
        seqStep := 0
        log := s.log ++ [.xfer out1 (.ok f.two), .xfer out2 (.err e), failed e] }) ∧
    (∀ (f g : InFrame) (e : TErr), s.ready = true → rb s.a = false →
      nextAnswers [out1, out2, out3] s = [f.answer, g.answer, .err e] →
      exec .readConfig s = .next { afterAnswers [out1, out2, out3] s with
        p := s.a
        a := ca
        seqStep := 0
        log := s.log ++ [.xfer out1 (.ok f.two), .xfer out2 (.ok g.two), .xfer out3 (.err e), failed e] })

/-- What R58 says of TRANSACT, WRITE_CONFIG and READ_CONFIG: an exchange that is never answered leaves the engine waiting on
it, with the shadow the exchanges before it made, and no response. -/
def Obligations.ConfigCommandsUnanswered : Prop :=
  ∀ (s : State) (f g : InFrame),
    let ca := withRb s.a true
    let out1 := outBytes true ca .two
    let out2 := outBytes true s.a .two
    let out3 : Bytes := .four 0#8 0#8 0#8 0#8
    s.ready = true →
    (∀ (cwe wc ws : Bool) (cfg : RegisterConfig),
      let out := outBytes cwe cfg (if wc && rb s.a then .four else .two)
      nextAnswers [out] s = [.never] →
      exec (.transact cwe wc ws cfg) s = .next { afterAnswers [out] s with waiting := some (.xfer out) }) ∧
    (∀ cfg : RegisterConfig,
      let out := outBytes true cfg .two
      nextAnswers [out] s = [.never] →
      exec (.writeConfig cfg) s = .next { afterAnswers [out] s with waiting := some (.xfer out) }) ∧
    (rb s.a = true → nextAnswers [out3] s = [.never] →
      exec .readConfig s = .next { afterAnswers [out3] s with waiting := some (.xfer out3) }) ∧
    (rb s.a = false → nextAnswers [out1] s = [.never] →
      exec .readConfig s = .next { afterAnswers [out1] s with waiting := some (.xfer out1) }) ∧
    (rb s.a = false → nextAnswers [out1, out2] s = [f.answer, .never] →
      exec .readConfig s = .next { afterAnswers [out1, out2] s with
        p := ca, a := s.p, seqStep := s.seqStep + 1, waiting := some (.xfer out2)
        log := s.log ++ [.xfer out1 (.ok f.two)] }) ∧
    (rb s.a = false → nextAnswers [out1, out2, out3] s = [f.answer, g.answer, .never] →
      exec .readConfig s = .next { afterAnswers [out1, out2, out3] s with
        p := s.a, a := ca, seqStep := s.seqStep + 2, waiting := some (.xfer out3)
        log := s.log ++ [.xfer out1 (.ok f.two), .xfer out2 (.ok g.two)] })

/-! ### BULK_READ (42_bulk_read) -/

/-- R140, R141, R142. BULK_READ, every way it returns. Where READY = 0, or with no destination whatever COUNT is:
INVALID_ARGUMENT and nothing else. With a destination and COUNT successful exchanges (COUNT = 0 among them): each exchange
of `00 00` and its DST write in order, the samples at DST[0] to DST[COUNT-1], every other word as before, and
`P = A =` the old P from the first exchange on. Where the exchange with index `k < COUNT` fails: the first `k` samples are in
DST, every later word keeps its contents, `k + 1` exchanges were attempted, and the shadow has advanced `k` times. -/
def Obligations.BulkReadCommand : Prop :=
  ∀ (count : BitVec 16) (s : State),
    (∀ dv : Bool, s.ready = false ∨ dv = false →
      exec (.bulkRead dv count) s = .next { s with
        seqStep := 0
        log := s.log ++ [.resp ⟨.invalidArgument, none, false, 0#16, false, 0#13⟩] }) ∧
    (∀ frames : List InFrame,
      let outs := List.replicate count.toNat zeroBytes
      s.ready = true → frames.length = count.toNat → nextAnswers outs s = frames.map InFrame.answer →
      ∃ d : Dst,
        exec (.bulkRead true count) s = .next { afterAnswers outs s with
          a := if count = 0#16 then s.a else s.p
          seqStep := 0
          dst := d
          log := s.log ++ bulkEvents s.v 0 frames ++ [.resp ⟨.ok, none, false, 0#16, false, 0#13⟩] } ∧
        ∀ j, dstRead d j = bulkDst s.v frames s.dst j) ∧
    (∀ (frames : List InFrame) (e : TErr),
      let outs := List.replicate (frames.length + 1) zeroBytes
      s.ready = true → frames.length < count.toNat → nextAnswers outs s = frames.map InFrame.answer ++ [.err e] →
      ∃ d : Dst,
        exec (.bulkRead true count) s = .next { afterAnswers outs s with
          a := if frames = [] then s.a else s.p
          seqStep := 0
          dst := d
          log := s.log ++ bulkEvents s.v 0 frames ++ [.xfer zeroBytes (.err e),
            .resp ⟨.transportFailure, some e, false, 0#16, false, 0#13⟩] } ∧
        ∀ j, dstRead d j = bulkDst s.v frames s.dst j)

/-- What R58 says of BULK_READ: where the exchange with index `k < COUNT` is never answered, it waits
there, the first `k` samples written. -/
def Obligations.BulkReadUnanswered : Prop :=
  ∀ (count : BitVec 16) (s : State) (frames : List InFrame),
    let outs := List.replicate (frames.length + 1) zeroBytes
    s.ready = true → frames.length < count.toNat → nextAnswers outs s = frames.map InFrame.answer ++ [.never] →
    ∃ d : Dst,
      exec (.bulkRead true count) s = .next { afterAnswers outs s with
        a := if frames = [] then s.a else s.p
        seqStep := s.seqStep + frames.length
        dst := d
        waiting := some (.xfer zeroBytes)
        log := s.log ++ bulkEvents s.v 0 frames } ∧
      ∀ j, dstRead d j = bulkDst s.v frames s.dst j

/-! ### INIT and TEARDOWN (43_lifecycle) -/

/-- R150, R151, R152. INIT, every way it returns. With an unrecognized tag, whatever READY is: INVALID_ARGUMENT and nothing
else. With a recognized tag where READY = 1: ALLOCATION_FAILURE and nothing else. Otherwise, with an Acquire and two
exchanges that succeed: the three events, then READY with `V = VTAG[1:0]` and `P = A = CFG`. Where the Acquire or one of the
exchanges fails: the failure is returned, the transport is released exactly where it was acquired, READY stays 0, and V, P
and A are as the steps before left them. -/
def Obligations.InitCommand : Prop :=
  ∀ (vtag : BitVec 8) (cfg : RegisterConfig) (tcfg : TCfg) (s : State),
    let s1 := (acqAnswer tcfg s).2
    let out := outBytes true cfg .two
    let failed : TErr → Event := fun e => .resp ⟨.transportFailure, some e, false, 0#16, false, 0#13⟩
    (3 < vtag.toNat →
      exec (.init vtag cfg tcfg) s = .next { s with
        seqStep := 0
        log := s.log ++ [.resp ⟨.invalidArgument, none, false, 0#16, false, 0#13⟩] }) ∧
    (vtag.toNat ≤ 3 → s.ready = true →
      exec (.init vtag cfg tcfg) s = .next { s with
        seqStep := 0
        log := s.log ++ [.resp ⟨.allocationFailure, none, false, 0#16, false, 0#13⟩] }) ∧
    (∀ f g : InFrame, s.ready = false → vtag.toNat ≤ 3 → (acqAnswer tcfg s).1 = .ok →
      nextAnswers [out, zeroBytes] s1 = [f.answer, g.answer] →
      exec (.init vtag cfg tcfg) s = .next { afterAnswers [out, zeroBytes] s1 with
        v := vtag.extractLsb' 0 2
        ready := true
        p := cfg
        a := cfg
        seqStep := 0
        log := s.log ++ [.acq tcfg .ok, .xfer out (.ok f.two), .xfer zeroBytes (.ok g.two),
          .resp ⟨.ok, none, false, 0#16, false, 0#13⟩] }) ∧
    (∀ e : TErr, s.ready = false → vtag.toNat ≤ 3 → (acqAnswer tcfg s).1 = .err e →
      exec (.init vtag cfg tcfg) s = .next { s1 with
        v := vtag.extractLsb' 0 2, p := 0#13, a := 0#13, seqStep := 0
        log := s.log ++ [.acq tcfg (.err e), failed e] }) ∧
    (∀ e : TErr, s.ready = false → vtag.toNat ≤ 3 → (acqAnswer tcfg s).1 = .ok →
      nextAnswers [out] s1 = [.err e] →
      exec (.init vtag cfg tcfg) s = .next { afterAnswers [out] s1 with
        v := vtag.extractLsb' 0 2, p := 0#13, a := 0#13, seqStep := 0
        log := s.log ++ [.acq tcfg .ok, .xfer out (.err e), .rel, failed e] }) ∧
    (∀ (f : InFrame) (e : TErr), s.ready = false → vtag.toNat ≤ 3 → (acqAnswer tcfg s).1 = .ok →
      nextAnswers [out, zeroBytes] s1 = [f.answer, .err e] →
      exec (.init vtag cfg tcfg) s = .next { afterAnswers [out, zeroBytes] s1 with
        v := vtag.extractLsb' 0 2, p := cfg, a := 0#13, seqStep := 0
        log := s.log ++ [.acq tcfg .ok, .xfer out (.ok f.two), .xfer zeroBytes (.err e), .rel, failed e] })

/-- What R58 says of INIT: where its Acquire or one of its exchanges is never answered it waits there, READY still 0. -/
def Obligations.InitUnanswered : Prop :=
  ∀ (vtag : BitVec 8) (cfg : RegisterConfig) (tcfg : TCfg) (s : State) (f : InFrame),
    let s1 := (acqAnswer tcfg s).2
    let out := outBytes true cfg .two
    s.ready = false → vtag.toNat ≤ 3 →
    ((acqAnswer tcfg s).1 = .never →
      exec (.init vtag cfg tcfg) s = .next { s1 with
        v := vtag.extractLsb' 0 2, p := 0#13, a := 0#13, waiting := some (.acquire tcfg) }) ∧
    ((acqAnswer tcfg s).1 = .ok → nextAnswers [out] s1 = [.never] →
      exec (.init vtag cfg tcfg) s = .next { afterAnswers [out] s1 with
        v := vtag.extractLsb' 0 2, p := 0#13, a := 0#13, waiting := some (.xfer out)
        log := s.log ++ [.acq tcfg .ok] }) ∧
    ((acqAnswer tcfg s).1 = .ok → nextAnswers [out, zeroBytes] s1 = [f.answer, .never] →
      exec (.init vtag cfg tcfg) s = .next { afterAnswers [out, zeroBytes] s1 with
        v := vtag.extractLsb' 0 2, p := cfg, a := 0#13, seqStep := s.seqStep + 1, waiting := some (.xfer zeroBytes)
        log := s.log ++ [.acq tcfg .ok, .xfer out (.ok f.two)] })

/-- R153. TEARDOWN: in state READY one REL event and READY cleared, V, P and A kept; with no handle INVALID_ARGUMENT, no
release and no effect. -/
def Obligations.TeardownReleases : Prop :=
  ∀ s : State,
    (s.ready = true →
      exec .teardown s = .next { s with
        ready := false
        seqStep := 0
        log := s.log ++ [.rel, .resp ⟨.ok, none, false, 0#16, false, 0#13⟩] }) ∧
    (s.ready = false →
      exec .teardown s = .next { s with
        seqStep := 0
        log := s.log ++ [.resp ⟨.invalidArgument, none, false, 0#16, false, 0#13⟩] })

/-! ### Rules about every command -/

/-- R161. INVALID_ARGUMENT has the four causes of the rule's table and no other: an illegal word, READY = 0 for a command
other than INIT, an unrecognized tag, a missing destination; the response records nothing further and the command has no
effect at all. -/
def Obligations.InvalidArgumentHasFourCauses : Prop :=
  ∀ (s t : State) (c : Command) (rest : List Input) (evs : List Event) (r : Response),
    s.waiting = none → s.port = .command c :: rest → step s = .next t → t.log = s.log ++ evs ++ [.resp r] →
    (r.status = .invalidArgument ↔
      (∃ e, decode c.word c.tcfg = .error e) ∨
      ∃ i, decode c.word c.tcfg = .ok i ∧
        ((s.ready = false ∧ ∀ vtag cfg tcfg, i ≠ .init vtag cfg tcfg) ∨
         (∃ vtag cfg tcfg, i = .init vtag cfg tcfg ∧ 3 < vtag.toNat) ∨
         (∃ count, i = .bulkRead false count))) ∧
    (r.status = .invalidArgument →
      r = ⟨.invalidArgument, none, false, 0#16, false, 0#13⟩ ∧
      t = { s with port := rest, seqStep := 0, log := s.log ++ [.resp r] })

/-- From R160, R81 and R58: every command answers a next state, never a fault (DEDUCED from R160 and R58, log entry 21): either
its one response, after all its other events and with the sequencer idle again, whose status is one of four with the
numbers 0 to 3; or a wait on the transport with no response, in the form the model chose (R58; DESIGN CHOICE in form, log
entry 3). -/
def Obligations.OneResponsePerCommand : Prop :=
  (∀ (i : Instr) (s : State), s.waiting = none →
    ∃ (t : State) (evs : List Event), exec i s = .next t ∧ (∀ e ∈ evs, e.response? = none) ∧
      ((∃ r, t.log = s.log ++ evs ++ [.resp r] ∧ t.seqStep = 0 ∧ t.waiting = none) ∨
       (∃ q, t.log = s.log ++ evs ∧ t.waiting = some q))) ∧
  (∀ st : Status, st = .ok ∨ st = .invalidArgument ∨ st = .allocationFailure ∨ st = .transportFailure) ∧
  statusCode .ok = 0 ∧ statusCode .invalidArgument = 1 ∧ statusCode .allocationFailure = 2 ∧
  statusCode .transportFailure = 3

/-- From R21: V is written by INIT alone, only while READY = 0, with the low two bits of a recognized tag. -/
def Obligations.VariantIsWrittenByInitAlone : Prop :=
  ∀ (i : Instr) (s t : State), exec i s = .next t → t.v ≠ s.v →
    ∃ vtag cfg tcfg, i = .init vtag cfg tcfg ∧ s.ready = false ∧ vtag.toNat ≤ 3 ∧ t.v = vtag.extractLsb' 0 2

/-- From R22: READY is set to 1 only by a successful INIT and cleared only by a successful TEARDOWN. -/
def Obligations.ReadyChangesOnlyByInitAndTeardown : Prop :=
  ∀ (i : Instr) (s t : State), exec i s = .next t →
    (s.ready = false → t.ready = true →
      ∃ vtag cfg tcfg, i = .init vtag cfg tcfg ∧ t.log.getLast? = some (.resp Response.okPlain)) ∧
    (s.ready = true → t.ready = false →
      i = .teardown ∧ t.log.getLast? = some (.resp Response.okPlain))

/-- From R27: the shadow is written only by successful exchanges and by INIT's allocation: where a command changes P or A and is
no INIT, some exchange of it succeeded. -/
def Obligations.ShadowChangesOnlyByExchanges : Prop :=
  ∀ (i : Instr) (s t : State), exec i s = .next t → (t.p ≠ s.p ∨ t.a ≠ s.a) →
    (∃ vtag cfg tcfg, i = .init vtag cfg tcfg) ∨
    (s.ready = true ∧ ∃ out inb, .xfer out (.ok inb) ∈ t.log.drop s.log.length)

/-- From R48: DST is written only by BULK_READ, only in state READY with a destination, only at indices below COUNT. -/
def Obligations.OnlyBulkReadWritesDst : Prop :=
  ∀ (i : Instr) (s t : State) (j : Nat), exec i s = .next t → dstRead t.dst j ≠ dstRead s.dst j →
    ∃ count, i = .bulkRead true count ∧ j < count.toNat ∧ s.ready = true

/-- FRAME of TRANSACT, WRITE_CONFIG and READ_CONFIG, whatever the transport answers: V, READY, every word of DST, the port
and the answers to Acquire are unchanged (R112, R130, R132). -/
def Obligations.FrameOfConfigCommands : Prop :=
  ∀ (i : Instr) (s t : State),
    ((∃ cwe wc ws cfg, i = .transact cwe wc ws cfg) ∨ (∃ cfg, i = .writeConfig cfg) ∨ i = .readConfig) →
    exec i s = .next t →
    t.v = s.v ∧ t.ready = s.ready ∧ t.dst = s.dst ∧ t.port = s.port ∧ t.acqAnswers = s.acqAnswers

/-- FRAME of BULK_READ, whatever the transport answers: V, READY, P, the port and the answers to Acquire are unchanged, A
is the old A or the old P, and every word of DST at COUNT or above is unchanged (R140, R143). -/
def Obligations.FrameOfBulkRead : Prop :=
  ∀ (dv : Bool) (count : BitVec 16) (s t : State), exec (.bulkRead dv count) s = .next t →
    t.v = s.v ∧ t.ready = s.ready ∧ t.p = s.p ∧ (t.a = s.a ∨ t.a = s.p) ∧ t.port = s.port ∧
    t.acqAnswers = s.acqAnswers ∧ (∀ j, count.toNat ≤ j ∨ dv = false → dstRead t.dst j = dstRead s.dst j)

/-- FRAME of INIT, whatever the transport answers: every word of DST and the port are unchanged, and where READY = 1 or the
tag is unrecognized so are V, P, A and READY (R150, R152). -/
def Obligations.FrameOfInit : Prop :=
  ∀ (vtag : BitVec 8) (cfg : RegisterConfig) (tcfg : TCfg) (s t : State),
    exec (.init vtag cfg tcfg) s = .next t →
    t.dst = s.dst ∧ t.port = s.port ∧
    (s.ready = true ∨ 3 < vtag.toNat →
      t.v = s.v ∧ t.p = s.p ∧ t.a = s.a ∧ t.ready = s.ready ∧ t.trace = s.trace)

/-- R80. SV only from TRANSACT with WS, CV only from TRANSACT with WC or from READ_CONFIG; with an error neither. -/
def Obligations.WhichCommandsReturnResults : Prop :=
  ∀ (i : Instr) (s t : State) (evs : List Event) (r : Response),
    s.waiting = none → exec i s = .next t → t.log = s.log ++ evs ++ [.resp r] →
    r.wf = true ∧
    (r.sv = true → ∃ cwe wc cfg, i = .transact cwe wc true cfg) ∧
    (r.cv = true → (∃ cwe ws cfg, i = .transact cwe true ws cfg) ∨ i = .readConfig)

/-- R163. TRANSPORT_FAILURE exactly where an Acquire or an exchange of the command failed: the response's error is that
error, unchanged, nothing failed before it, and nothing follows it but the release of an INIT (no retry). -/
def Obligations.TransportErrorIsPassedOnVerbatim : Prop :=
  ∀ (i : Instr) (s t : State) (evs : List Event) (r : Response),
    s.waiting = none → exec i s = .next t → t.log = s.log ++ evs ++ [.resp r] →
    (r.status = .transportFailure →
      ∃ (before after : List Event) (ev : Event) (e : TErr),
        evs = before ++ ev :: after ∧ (∀ x ∈ before, x.error? = none) ∧ ev.error? = some e ∧ r.err = some e ∧
        (after = [] ∨ after = [.rel])) ∧
    (r.status ≠ .transportFailure → r.err = none ∧ ∀ x ∈ evs, x.error? = none)

/-- R162, R152. ALLOCATION_FAILURE has one cause: INIT with a recognized tag while READY = 1; no effect on state, no
transport event. -/
def Obligations.AllocationFailureHasOneCause : Prop :=
  (∀ (i : Instr) (s t : State) (evs : List Event) (r : Response),
    s.waiting = none → exec i s = .next t → t.log = s.log ++ evs ++ [.resp r] → r.status = .allocationFailure →
    (∃ vtag cfg tcfg, i = .init vtag cfg tcfg ∧ vtag.toNat ≤ 3) ∧ s.ready = true ∧ evs = [] ∧
    t = { s with seqStep := 0, log := s.log ++ [.resp r] }) ∧
  (∀ (vtag : BitVec 8) (cfg : RegisterConfig) (tcfg : TCfg) (s : State), vtag.toNat ≤ 3 → s.ready = true →
    exec (.init vtag cfg tcfg) s = .next { s with
      seqStep := 0
      log := s.log ++ [.resp ⟨.allocationFailure, none, false, 0#16, false, 0#13⟩] })

/-- The costs in transfers, the table that R206 marks [derived], of a command that returns OK: its exchanges and their lengths in order, how often it asks
for the transport and how often it releases it; and the one release of an INIT one of whose transfers fails. -/
def Obligations.CostsInTransfers : Prop :=
  ∀ (i : Instr) (s t : State) (evs : List Event) (r : Response),
    s.waiting = none → exec i s = .next t → t.log = s.log ++ evs ++ [.resp r] →
    (r.status = .ok →
      xferLens evs = costOf i s ∧
      acqCount evs = (match i with | .init _ _ _ => 1 | _ => 0) ∧
      relCount evs = (match i with | .teardown => 1 | _ => 0)) ∧
    (∀ vtag cfg tcfg, i = .init vtag cfg tcfg → r.status = .transportFailure → xferLens evs ≠ [] →
      relCount evs = 1)

/-! ### Invariants that every step keeps -/

/-- Tier 3. Every step keeps the protocol of the transport, which R154 marks [derived] and R20 words: no Acquire while it is
held, no exchange and no release while it is not, and it is held exactly as READY says. -/
def Obligations.StepKeepsLinkProtocol : Prop :=
  ∀ s t : State, LinkInv s → step s = .next t → LinkInv t

/-- What the link invariant says of a log, event by event, of every state that meets it and of the state after a step
from it: every exchange and every release follows a successful Acquire with no release and no hardware reset between,
and an Acquire that follows a successful one has a release or a hardware reset between the two. R154 marks this
lifetime [derived]; the hardware reset in it is the model's choice (log entry 18). -/
def Obligations.LinkProtocolOrdersTheTrace : Prop :=
  ∀ (s t u : State), LinkInv s → step s = .next t → u = s ∨ u = t →
    ∀ (before after : List Event) (e : Event), u.log = before ++ e :: after →
      ((e = .rel ∨ ∃ out res, e = .xfer out res) →
        ∃ (early since : List Event) (tcfg : TCfg), before = early ++ .acq tcfg .ok :: since ∧
          .rel ∉ since ∧ .hwReset ∉ since) ∧
      (∀ tcfg res, e = .acq tcfg res →
        ∀ (early since : List Event) (tcfg' : TCfg), before = early ++ .acq tcfg' .ok :: since →
          .rel ∈ since ∨ .hwReset ∈ since)

/-- Tier 3. Every step keeps the shadow equal to the replay, by the update of R26 and with no rollback (R168), of
the successful exchanges in the trace. -/
def Obligations.StepKeepsShadowReplay : Prop :=
  ∀ s t : State, ShadowInv s → step s = .next t → ShadowInv t

/-- Every step keeps what is observed well-formed: responses (R80), as many bytes in as out (R42), DST indices that exist
(R48). -/
def Obligations.StepKeepsEventsWellFormed : Prop :=
  ∀ s t : State, EventInv s → step s = .next t → EventInv t

/-- Every step keeps the sequencer step 0 between commands (R29; that the step is a number of the state is the model's,
log entry 9), and DST in canonical form (the strictly rising list is the model's own representation of R48's array, log
entry 6). -/
def Obligations.StepKeepsIdleAndDst : Prop :=
  ∀ s t : State, IdleInv s → DstInv s → step s = .next t → IdleInv t ∧ DstInv t

/-- Tier 1. All five invariants hold right after reset. -/
def Obligations.ResetMeetsTheInvariants : Prop :=
  LinkInv State.reset ∧ ShadowInv State.reset ∧ EventInv State.reset ∧ IdleInv State.reset ∧ DstInv State.reset

/-! ### What cannot be seen -/

/-- From R48: the engine never reads DST: whatever DST holds, a command does the same to everything but DST. -/
def Obligations.EngineNeverReadsDst : Prop :=
  ∀ (i : Instr) (s t : State) (d : Dst), exec i s = .next t →
    ∃ d', exec i { s with dst := d } = .next { t with dst := d' }

/-- From R32: with READY = 0 the values of V, P and A cannot be observed: whatever they are, a command causes the same events and
responses, uses the same inputs and ends in the same lifecycle state, and a successful INIT overwrites all three. -/
def Obligations.UninitRegistersAreUnobservable : Prop :=
  ∀ (i : Instr) (s t : State) (v : BitVec 2) (p a : RegisterConfig), s.ready = false → exec i s = .next t →
    ∃ (v' : BitVec 2) (p' a' : RegisterConfig),
      exec i { s with v := v, p := p, a := a } = .next { t with v := v', p := p', a := a' } ∧
      (t.ready = true → v' = t.v ∧ p' = t.p ∧ a' = t.a)

/-- After a successful INIT two transfers have succeeded since its Acquire, in the numbering of R11, and the next TRANSACT that
returns OK makes them three, so that the first sample a host reads with it is that of the third (R193). -/
def Obligations.FirstSampleIsTheThirdTransfer : Prop :=
  ∀ (vtag : BitVec 8) (cfg : RegisterConfig) (tcfg : TCfg) (s t : State), s.ready = false →
    exec (.init vtag cfg tcfg) s = .next t → t.ready = true →
    transferCount t.log = 2 ∧
    ∀ (cwe wc ws : Bool) (c : RegisterConfig) (u : State) (evs : List Event) (r : Response),
      exec (.transact cwe wc ws c) t = .next u → u.log = t.log ++ evs ++ [.resp r] → r.status = .ok →
      transferCount u.log = 3

/-- From R7, R41 and R163: TCfg and TErr are type arguments of the machine, and the engine passes their values on unread. For
any types, any two maps `f` and `g` between them, and a state whose queues hold the answers a command asks for (an answer
beyond them is a free value, log entry 1): sending every configuration and error through `f` and `g` before a command, or
before a step, comes to the same as doing so after it. -/
def Obligations.OpaqueTypesAreNotInspected : Prop :=
  ∀ (TCfg TErr TCfg' TErr' : Type) (f : TCfg → TCfg') (g : TErr → TErr') (s : State TCfg TErr),
    s.acqAnswers ≠ [] → 65535 ≤ s.xferAnswers.length →
    (∀ i : Instr TCfg, ∃ t, execOf i s = .next t ∧
      execOf (mapInstr f i) (s.mapTypes f g) = .next (t.mapTypes f g)) ∧
    (∃ t, stepOf s = .next t ∧ stepOf (s.mapTypes f g) = .next (t.mapTypes f g))
end

