-- ==== Sys2Proof/Laws/State.lean ====
section
/-! SUPPORT. What each update of State does to each field, and that a transport answer moves on nothing but the inputs. -/

namespace Sys2Proof.Machine

open Sys2Proof.Config

variable {TCfg TErr : Type}

section
variable (s : State TCfg TErr) (e : Event TCfg TErr)
@[simp] theorem State.emit_v : (s.emit e).v = s.v := rfl
@[simp] theorem State.emit_ready : (s.emit e).ready = s.ready := rfl
@[simp] theorem State.emit_p : (s.emit e).p = s.p := rfl
@[simp] theorem State.emit_a : (s.emit e).a = s.a := rfl
@[simp] theorem State.emit_seqStep : (s.emit e).seqStep = s.seqStep := rfl
@[simp] theorem State.emit_dst : (s.emit e).dst = s.dst := rfl
@[simp] theorem State.emit_port : (s.emit e).port = s.port := rfl
@[simp] theorem State.emit_acqAnswers : (s.emit e).acqAnswers = s.acqAnswers := rfl
@[simp] theorem State.emit_xferAnswers : (s.emit e).xferAnswers = s.xferAnswers := rfl
@[simp] theorem State.emit_draws : (s.emit e).draws = s.draws := rfl
@[simp] theorem State.emit_waiting : (s.emit e).waiting = s.waiting := rfl
@[simp] theorem State.emit_log : (s.emit e).log = s.log ++ [e] := rfl
end

section
variable (s : State TCfg TErr) (cwe : Bool) (c : RegisterConfig)
@[simp] theorem State.advance_v : (s.advance cwe c).v = s.v := rfl
@[simp] theorem State.advance_ready : (s.advance cwe c).ready = s.ready := rfl
@[simp] theorem State.advance_p : (s.advance cwe c).p = if cwe then c else s.p := rfl
@[simp] theorem State.advance_a : (s.advance cwe c).a = s.p := rfl
@[simp] theorem State.advance_seqStep : (s.advance cwe c).seqStep = s.seqStep + 1 := rfl
@[simp] theorem State.advance_dst : (s.advance cwe c).dst = s.dst := rfl
@[simp] theorem State.advance_port : (s.advance cwe c).port = s.port := rfl
@[simp] theorem State.advance_acqAnswers : (s.advance cwe c).acqAnswers = s.acqAnswers := rfl
@[simp] theorem State.advance_xferAnswers : (s.advance cwe c).xferAnswers = s.xferAnswers := rfl
@[simp] theorem State.advance_draws : (s.advance cwe c).draws = s.draws := rfl
@[simp] theorem State.advance_waiting : (s.advance cwe c).waiting = s.waiting := rfl
@[simp] theorem State.advance_log : (s.advance cwe c).log = s.log := rfl
end

section
variable (s : State TCfg TErr) (t : BitVec 8)
@[simp] theorem State.allocate_v : (s.allocate t).v = t.extractLsb' 0 2 := rfl
@[simp] theorem State.allocate_ready : (s.allocate t).ready = s.ready := rfl
@[simp] theorem State.allocate_p : (s.allocate t).p = zeroConfig := rfl
@[simp] theorem State.allocate_a : (s.allocate t).a = zeroConfig := rfl
@[simp] theorem State.allocate_seqStep : (s.allocate t).seqStep = s.seqStep := rfl
@[simp] theorem State.allocate_dst : (s.allocate t).dst = s.dst := rfl
@[simp] theorem State.allocate_port : (s.allocate t).port = s.port := rfl
@[simp] theorem State.allocate_acqAnswers : (s.allocate t).acqAnswers = s.acqAnswers := rfl
@[simp] theorem State.allocate_xferAnswers : (s.allocate t).xferAnswers = s.xferAnswers := rfl
@[simp] theorem State.allocate_draws : (s.allocate t).draws = s.draws := rfl
@[simp] theorem State.allocate_waiting : (s.allocate t).waiting = s.waiting := rfl
@[simp] theorem State.allocate_log : (s.allocate t).log = s.log := rfl
end

section
variable (s : State TCfg TErr) (b : Bool)
@[simp] theorem State.setReady_v : (s.setReady b).v = s.v := rfl
@[simp] theorem State.setReady_ready : (s.setReady b).ready = b := rfl
@[simp] theorem State.setReady_p : (s.setReady b).p = s.p := rfl
@[simp] theorem State.setReady_a : (s.setReady b).a = s.a := rfl
@[simp] theorem State.setReady_seqStep : (s.setReady b).seqStep = s.seqStep := rfl
@[simp] theorem State.setReady_dst : (s.setReady b).dst = s.dst := rfl
@[simp] theorem State.setReady_port : (s.setReady b).port = s.port := rfl
@[simp] theorem State.setReady_acqAnswers : (s.setReady b).acqAnswers = s.acqAnswers := rfl
@[simp] theorem State.setReady_xferAnswers : (s.setReady b).xferAnswers = s.xferAnswers := rfl
@[simp] theorem State.setReady_draws : (s.setReady b).draws = s.draws := rfl
@[simp] theorem State.setReady_waiting : (s.setReady b).waiting = s.waiting := rfl
@[simp] theorem State.setReady_log : (s.setReady b).log = s.log := rfl
end

section
variable (s : State TCfg TErr) (q : Request TCfg)
@[simp] theorem State.wait_v : (s.wait q).v = s.v := rfl
@[simp] theorem State.wait_ready : (s.wait q).ready = s.ready := rfl
@[simp] theorem State.wait_p : (s.wait q).p = s.p := rfl
@[simp] theorem State.wait_a : (s.wait q).a = s.a := rfl
@[simp] theorem State.wait_seqStep : (s.wait q).seqStep = s.seqStep := rfl
@[simp] theorem State.wait_dst : (s.wait q).dst = s.dst := rfl
@[simp] theorem State.wait_port : (s.wait q).port = s.port := rfl
@[simp] theorem State.wait_acqAnswers : (s.wait q).acqAnswers = s.acqAnswers := rfl
@[simp] theorem State.wait_xferAnswers : (s.wait q).xferAnswers = s.xferAnswers := rfl
@[simp] theorem State.wait_draws : (s.wait q).draws = s.draws := rfl
@[simp] theorem State.wait_waiting : (s.wait q).waiting = some q := rfl
@[simp] theorem State.wait_log : (s.wait q).log = s.log := rfl
end

section
variable (s : State TCfg TErr) (i : Nat) (w : Word16)
@[simp] theorem State.writeDst_v : (s.writeDst i w).v = s.v := rfl
@[simp] theorem State.writeDst_ready : (s.writeDst i w).ready = s.ready := rfl
@[simp] theorem State.writeDst_p : (s.writeDst i w).p = s.p := rfl
@[simp] theorem State.writeDst_a : (s.writeDst i w).a = s.a := rfl
@[simp] theorem State.writeDst_seqStep : (s.writeDst i w).seqStep = s.seqStep := rfl
@[simp] theorem State.writeDst_dst : (s.writeDst i w).dst = dstWrite s.dst i w := rfl
@[simp] theorem State.writeDst_port : (s.writeDst i w).port = s.port := rfl
@[simp] theorem State.writeDst_acqAnswers : (s.writeDst i w).acqAnswers = s.acqAnswers := rfl
@[simp] theorem State.writeDst_xferAnswers : (s.writeDst i w).xferAnswers = s.xferAnswers := rfl
@[simp] theorem State.writeDst_draws : (s.writeDst i w).draws = s.draws := rfl
@[simp] theorem State.writeDst_waiting : (s.writeDst i w).waiting = s.waiting := rfl
@[simp] theorem State.writeDst_log : (s.writeDst i w).log = s.log ++ [.dstWrite i w] := rfl
end

section
variable (s : State TCfg TErr) (r : Response TErr)
@[simp] theorem State.respond_v : (s.respond r).v = s.v := rfl
@[simp] theorem State.respond_ready : (s.respond r).ready = s.ready := rfl
@[simp] theorem State.respond_p : (s.respond r).p = s.p := rfl
@[simp] theorem State.respond_a : (s.respond r).a = s.a := rfl
@[simp] theorem State.respond_seqStep : (s.respond r).seqStep = 0 := rfl
@[simp] theorem State.respond_dst : (s.respond r).dst = s.dst := rfl
@[simp] theorem State.respond_port : (s.respond r).port = s.port := rfl
@[simp] theorem State.respond_acqAnswers : (s.respond r).acqAnswers = s.acqAnswers := rfl
@[simp] theorem State.respond_xferAnswers : (s.respond r).xferAnswers = s.xferAnswers := rfl
@[simp] theorem State.respond_draws : (s.respond r).draws = s.draws := rfl
@[simp] theorem State.respond_waiting : (s.respond r).waiting = s.waiting := rfl
@[simp] theorem State.respond_log : (s.respond r).log = s.log ++ [.resp r] := rfl
end

section
variable (s : State TCfg TErr) (l : List (Input TCfg))
@[simp] theorem State.accept_v : (s.accept l).v = s.v := rfl
@[simp] theorem State.accept_ready : (s.accept l).ready = s.ready := rfl
@[simp] theorem State.accept_p : (s.accept l).p = s.p := rfl
@[simp] theorem State.accept_a : (s.accept l).a = s.a := rfl
@[simp] theorem State.accept_seqStep : (s.accept l).seqStep = s.seqStep := rfl
@[simp] theorem State.accept_dst : (s.accept l).dst = s.dst := rfl
@[simp] theorem State.accept_port : (s.accept l).port = l := rfl
@[simp] theorem State.accept_acqAnswers : (s.accept l).acqAnswers = s.acqAnswers := rfl
@[simp] theorem State.accept_xferAnswers : (s.accept l).xferAnswers = s.xferAnswers := rfl
@[simp] theorem State.accept_draws : (s.accept l).draws = s.draws := rfl
@[simp] theorem State.accept_waiting : (s.accept l).waiting = s.waiting := rfl
@[simp] theorem State.accept_log : (s.accept l).log = s.log := rfl
end

section
variable (s : State TCfg TErr) (i : BitVec 16) (w : Word16)
@[simp] theorem State.hostWrite_v : (s.hostWrite i w).v = s.v := rfl
@[simp] theorem State.hostWrite_ready : (s.hostWrite i w).ready = s.ready := rfl
@[simp] theorem State.hostWrite_p : (s.hostWrite i w).p = s.p := rfl
@[simp] theorem State.hostWrite_a : (s.hostWrite i w).a = s.a := rfl
@[simp] theorem State.hostWrite_seqStep : (s.hostWrite i w).seqStep = s.seqStep := rfl
@[simp] theorem State.hostWrite_dst : (s.hostWrite i w).dst = dstWrite s.dst i.toNat w := rfl
@[simp] theorem State.hostWrite_port : (s.hostWrite i w).port = s.port := rfl
@[simp] theorem State.hostWrite_acqAnswers : (s.hostWrite i w).acqAnswers = s.acqAnswers := rfl
@[simp] theorem State.hostWrite_xferAnswers : (s.hostWrite i w).xferAnswers = s.xferAnswers := rfl
@[simp] theorem State.hostWrite_draws : (s.hostWrite i w).draws = s.draws := rfl
@[simp] theorem State.hostWrite_waiting : (s.hostWrite i w).waiting = s.waiting := rfl
@[simp] theorem State.hostWrite_log : (s.hostWrite i w).log = s.log := rfl
end

section
variable (s : State TCfg TErr)
@[simp] theorem State.hardwareReset_v : (s.hardwareReset).v = 0#2 := rfl
@[simp] theorem State.hardwareReset_ready : (s.hardwareReset).ready = false := rfl
@[simp] theorem State.hardwareReset_p : (s.hardwareReset).p = zeroConfig := rfl
@[simp] theorem State.hardwareReset_a : (s.hardwareReset).a = zeroConfig := rfl
@[simp] theorem State.hardwareReset_seqStep : (s.hardwareReset).seqStep = 0 := rfl
@[simp] theorem State.hardwareReset_dst : (s.hardwareReset).dst = s.dst := rfl
@[simp] theorem State.hardwareReset_port : (s.hardwareReset).port = s.port := rfl
@[simp] theorem State.hardwareReset_acqAnswers : (s.hardwareReset).acqAnswers = s.acqAnswers := rfl
@[simp] theorem State.hardwareReset_xferAnswers : (s.hardwareReset).xferAnswers = s.xferAnswers := rfl
@[simp] theorem State.hardwareReset_draws : (s.hardwareReset).draws = s.draws := rfl
@[simp] theorem State.hardwareReset_waiting : (s.hardwareReset).waiting = s.waiting := rfl
@[simp] theorem State.hardwareReset_log : (s.hardwareReset).log = s.log ++ [.hwReset] := rfl
end

section
variable (s : State TCfg TErr)
@[simp] theorem release_v : (release s).v = s.v := rfl
@[simp] theorem release_ready : (release s).ready = s.ready := rfl
@[simp] theorem release_p : (release s).p = s.p := rfl
@[simp] theorem release_a : (release s).a = s.a := rfl
@[simp] theorem release_seqStep : (release s).seqStep = s.seqStep := rfl
@[simp] theorem release_dst : (release s).dst = s.dst := rfl
@[simp] theorem release_port : (release s).port = s.port := rfl
@[simp] theorem release_acqAnswers : (release s).acqAnswers = s.acqAnswers := rfl
@[simp] theorem release_xferAnswers : (release s).xferAnswers = s.xferAnswers := rfl
@[simp] theorem release_draws : (release s).draws = s.draws := rfl
@[simp] theorem release_waiting : (release s).waiting = s.waiting := rfl
@[simp] theorem release_log : (release s).log = s.log ++ [.rel] := rfl
end

section
variable (s : State) (w : CommandWord)
@[simp] theorem placeCommand_v : (placeCommand s w).v = s.v := rfl
@[simp] theorem placeCommand_ready : (placeCommand s w).ready = s.ready := rfl
@[simp] theorem placeCommand_p : (placeCommand s w).p = s.p := rfl
@[simp] theorem placeCommand_a : (placeCommand s w).a = s.a := rfl
@[simp] theorem placeCommand_seqStep : (placeCommand s w).seqStep = s.seqStep := rfl
@[simp] theorem placeCommand_dst : (placeCommand s w).dst = s.dst := rfl
@[simp] theorem placeCommand_port : (placeCommand s w).port = .command ⟨w, noTcfg⟩ :: s.port := rfl
@[simp] theorem placeCommand_acqAnswers : (placeCommand s w).acqAnswers = s.acqAnswers := rfl
@[simp] theorem placeCommand_xferAnswers : (placeCommand s w).xferAnswers = s.xferAnswers := rfl
@[simp] theorem placeCommand_draws : (placeCommand s w).draws = s.draws := rfl
@[simp] theorem placeCommand_waiting : (placeCommand s w).waiting = none := rfl
@[simp] theorem placeCommand_log : (placeCommand s w).log = s.log := rfl
end

section
variable (tcfg : TCfg) (s : State TCfg TErr)
theorem acqAnswer_fst : (acqAnswer tcfg s).1 = (takeAcq tcfg s.acqAnswers s.draws).1 := rfl
@[simp] theorem acqAnswer_v : (acqAnswer tcfg s).2.v = s.v := rfl
@[simp] theorem acqAnswer_ready : (acqAnswer tcfg s).2.ready = s.ready := rfl
@[simp] theorem acqAnswer_p : (acqAnswer tcfg s).2.p = s.p := rfl
@[simp] theorem acqAnswer_a : (acqAnswer tcfg s).2.a = s.a := rfl
@[simp] theorem acqAnswer_seqStep : (acqAnswer tcfg s).2.seqStep = s.seqStep := rfl
@[simp] theorem acqAnswer_dst : (acqAnswer tcfg s).2.dst = s.dst := rfl
@[simp] theorem acqAnswer_port : (acqAnswer tcfg s).2.port = s.port := rfl
@[simp] theorem acqAnswer_acqAnswers : (acqAnswer tcfg s).2.acqAnswers = (takeAcq tcfg s.acqAnswers s.draws).2.1 := rfl
@[simp] theorem acqAnswer_xferAnswers : (acqAnswer tcfg s).2.xferAnswers = s.xferAnswers := rfl
@[simp] theorem acqAnswer_draws : (acqAnswer tcfg s).2.draws = (takeAcq tcfg s.acqAnswers s.draws).2.2 := rfl
@[simp] theorem acqAnswer_waiting : (acqAnswer tcfg s).2.waiting = s.waiting := rfl
@[simp] theorem acqAnswer_log : (acqAnswer tcfg s).2.log = s.log := rfl
end

section
variable (out : Bytes) (s : State TCfg TErr)
theorem xferAnswer_fst : (xferAnswer out s).1 = (takeXfer out s.xferAnswers s.draws).1 := rfl
@[simp] theorem xferAnswer_v : (xferAnswer out s).2.v = s.v := rfl
@[simp] theorem xferAnswer_ready : (xferAnswer out s).2.ready = s.ready := rfl
@[simp] theorem xferAnswer_p : (xferAnswer out s).2.p = s.p := rfl
@[simp] theorem xferAnswer_a : (xferAnswer out s).2.a = s.a := rfl
@[simp] theorem xferAnswer_seqStep : (xferAnswer out s).2.seqStep = s.seqStep := rfl
@[simp] theorem xferAnswer_dst : (xferAnswer out s).2.dst = s.dst := rfl
@[simp] theorem xferAnswer_port : (xferAnswer out s).2.port = s.port := rfl
@[simp] theorem xferAnswer_acqAnswers : (xferAnswer out s).2.acqAnswers = s.acqAnswers := rfl
@[simp] theorem xferAnswer_xferAnswers : (xferAnswer out s).2.xferAnswers = (takeXfer out s.xferAnswers s.draws).2.1 := rfl
@[simp] theorem xferAnswer_draws : (xferAnswer out s).2.draws = (takeXfer out s.xferAnswers s.draws).2.2 := rfl
@[simp] theorem xferAnswer_waiting : (xferAnswer out s).2.waiting = s.waiting := rfl
@[simp] theorem xferAnswer_log : (xferAnswer out s).2.log = s.log := rfl
end

end Sys2Proof.Machine
end

