-- ==== Sys2Proof/Laws/Answers.lean ====
section
/-! SUPPORT. The transport's answers to a list of requests: they depend on the answer queue and the counter alone, and
taking them moves nothing else (spec 20_memory R44). -/

namespace Sys2Proof.Machine

open Sys2Proof.Config

variable {TCfg TErr : Type}

theorem nextAnswers_append (xs ys : List Bytes) (s : State TCfg TErr) :
    nextAnswers (xs ++ ys) s = nextAnswers xs s ++ nextAnswers ys (afterAnswers xs s) := by
  induction xs generalizing s with
  | nil => rfl
  | cons x xs ih => simp [afterAnswers, nextAnswers, ih]

theorem afterAnswers_append (xs ys : List Bytes) (s : State TCfg TErr) :
    afterAnswers (xs ++ ys) s = afterAnswers ys (afterAnswers xs s) := by
  induction xs generalizing s with
  | nil => rfl
  | cons x xs ih => simp [afterAnswers, ih]

@[simp] theorem nextAnswers_length (xs : List Bytes) (s : State TCfg TErr) : (nextAnswers xs s).length = xs.length := by
  induction xs generalizing s with
  | nil => rfl
  | cons x xs ih => simp [nextAnswers, ih]

/-- Taking answers moves on the queue and the counter, and nothing else. -/
theorem afterAnswers_eq (xs : List Bytes) (s : State TCfg TErr) :
    afterAnswers xs s =
      { s with xferAnswers := (afterAnswers xs s).xferAnswers, draws := (afterAnswers xs s).draws } := by
  induction xs generalizing s with
  | nil => rfl
  | cons x xs ih => simp only [afterAnswers]; rw [ih]; simp [xferAnswer]

/-- The answers depend on the queue and the counter alone. -/
theorem nextAnswers_congr (xs : List Bytes) {s s' : State TCfg TErr} (hq : s'.xferAnswers = s.xferAnswers)
    (hd : s'.draws = s.draws) :
    nextAnswers xs s' = nextAnswers xs s ∧ (afterAnswers xs s').xferAnswers = (afterAnswers xs s).xferAnswers ∧
      (afterAnswers xs s').draws = (afterAnswers xs s).draws := by
  induction xs generalizing s s' with
  | nil => exact ⟨rfl, hq, hd⟩
  | cons x xs ih =>
    have := @ih (xferAnswer x s).2 (xferAnswer x s').2 (by simp [hq, hd]) (by simp [hq, hd])
    simp only [nextAnswers, afterAnswers, this, xferAnswer_fst, hq, hd, and_self]

end Sys2Proof.Machine
end

