-- ==== Sys2Proof/Laws/Decode.lean ====
section
/-! SUPPORT. The decoder's one check, and slices of words bit by bit (spec 30_encoding R82). -/

namespace Sys2Proof

@[simp] theorem checkZero_eq_ok {w : CommandWord} {zero : Bool} {TCfg : Type} {i j : Instr TCfg} :
    checkZero w zero i = .ok j ↔ zero = true ∧ i = j := by
  cases zero <;> simp [checkZero]

@[simp] theorem checkZero_eq_error {w : CommandWord} {zero : Bool} {TCfg : Type} {i : Instr TCfg} {e : Illegal} :
    checkZero w zero i = .error e ↔ zero = false ∧ .nonZeroBits (opField w) = e := by
  cases zero <;> simp [checkZero]

/-- A slice is known by its bits. -/
theorem extractLsb'_eq_iff {m n lo : Nat} {x : BitVec m} {y : BitVec n} :
    x.extractLsb' lo n = y ↔ ∀ k, k < n → x.getLsbD (lo + k) = y.getLsbD k := by
  constructor
  · rintro rfl k hk; simp [hk]
  · intro h; apply BitVec.eq_of_getLsbD_eq; intro k hk; simp [hk, h k hk]

end Sys2Proof
end

