-- ==== Sys2Proof/Laws/Dst.lean ====
section
/-! SUPPORT. DST: a read after a write, and the canonical form (spec 20_memory R48). -/

namespace Sys2Proof.Machine

@[simp] theorem dstRead_dstWrite_same (d : Dst) (i : Nat) (w : Word16) : dstRead (dstWrite d i w) i = some w := by
  induction d with
  | nil => simp [dstWrite, dstRead]
  | cons e rest ih =>
    obtain ⟨j, x⟩ := e
    simp only [dstWrite]
    split
    · simp [dstRead]
    · split
      · simp [dstRead]
      · rename_i h; simp [dstRead, h, ih]

theorem dstRead_dstWrite_other (d : Dst) {i k : Nat} (w : Word16) (hk : k ≠ i) :
    dstRead (dstWrite d i w) k = dstRead d k := by
  induction d with
  | nil => simp [dstWrite, dstRead, hk]
  | cons e rest ih =>
    obtain ⟨j, x⟩ := e
    simp only [dstWrite]
    split
    · simp [dstRead, hk]
    · split
      · rename_i h; subst h; simp [dstRead, hk]
      · simp [dstRead, ih]

/-- A read after a write, in one equation. -/
theorem dstRead_dstWrite (d : Dst) (i k : Nat) (w : Word16) :
    dstRead (dstWrite d i w) k = if k = i then some w else dstRead d k := by
  split
  · rename_i h; simp [h]
  · rename_i h; exact dstRead_dstWrite_other d w h

/-- The first index of a canonical list is below every index of the rest. -/
theorem dstWf_cons {j : Nat} {x : Word16} {rest : Dst} (h : dstWf ((j, x) :: rest) = true) :
    j < 65536 ∧ dstWf rest = true ∧ ∀ k y, (k, y) ∈ rest.head? → j < k := by
  cases rest with
  | nil => simpa [dstWf] using h
  | cons e rest =>
    obtain ⟨k, y⟩ := e
    simp only [dstWf, Bool.and_eq_true, decide_eq_true_eq] at h
    refine ⟨h.1.2, h.2, ?_⟩
    rintro k' y' hk
    simp only [List.head?_cons, Option.mem_def, Option.some.injEq, Prod.mk.injEq] at hk
    omega

theorem dstWf_cons_of {j : Nat} {x : Word16} {rest : Dst} (hj : j < 65536) (h : dstWf rest = true)
    (hk : ∀ k y, (k, y) ∈ rest.head? → j < k) : dstWf ((j, x) :: rest) = true := by
  cases rest with
  | nil => simp [dstWf, hj]
  | cons e rest => obtain ⟨k, y⟩ := e; simp [dstWf] at hk ⊢; exact ⟨⟨hk, hj⟩, h⟩

theorem dstWrite_head (d : Dst) (i : Nat) (w : Word16) {j : Nat} (hi : j < i)
    (hd : ∀ k y, (k, y) ∈ d.head? → j < k) : ∀ k y, (k, y) ∈ (dstWrite d i w).head? → j < k := by
  intro k y h
  cases d with
  | nil => simp [dstWrite] at h; omega
  | cons e rest =>
    obtain ⟨m, x⟩ := e
    simp only [dstWrite] at h
    split at h
    · simp at h; omega
    · split at h
      · simp at h; omega
      · simp at h; exact hd k y (by simp [h])

/-- A write of an index that exists keeps the canonical form. -/
theorem dstWrite_wf {d : Dst} {i : Nat} (w : Word16) (hi : i < 65536) (h : dstWf d = true) :
    dstWf (dstWrite d i w) = true := by
  induction d with
  | nil => simp [dstWrite, dstWf, hi]
  | cons e rest ih =>
    obtain ⟨j, x⟩ := e
    obtain ⟨hj, hr, hk⟩ := dstWf_cons h
    simp only [dstWrite]
    split
    · rename_i hij
      exact dstWf_cons_of hi h (by rintro k y hky; simp at hky; omega)
    · split
      · rename_i hij; subst hij; exact dstWf_cons_of hj hr hk
      · exact dstWf_cons_of hj (ih hr) (dstWrite_head rest i w (by omega) hk)

end Sys2Proof.Machine
end

