-- ==== Sys2Proof/Laws/Events.lean ====
section
/-! SUPPORT. What the observers of Safety.lean say of each event and of the events of a BULK_READ (spec 20_memory R45,
42_bulk_read R140). -/

namespace Sys2Proof.Machine

open Sys2Proof.Config

variable {TCfg TErr : Type}

/-! ### The observers, event by event -/

@[simp] theorem response?_acq (c : TCfg) (r : AcqResult TErr) : (Event.acq c r : Event TCfg TErr).response? = none := rfl
@[simp] theorem response?_xfer (o : Bytes) (r : XferResult TErr) : (Event.xfer o r : Event TCfg TErr).response? = none := rfl
@[simp] theorem response?_rel : (Event.rel : Event TCfg TErr).response? = none := rfl
@[simp] theorem response?_dstWrite (i : Nat) (v : Word16) : (Event.dstWrite i v : Event TCfg TErr).response? = none := rfl
@[simp] theorem response?_resp (r : Response TErr) : (Event.resp r : Event TCfg TErr).response? = some r := rfl
@[simp] theorem response?_hwReset : (Event.hwReset : Event TCfg TErr).response? = none := rfl

@[simp] theorem error?_acqOk (c : TCfg) : (Event.acq c .ok : Event TCfg TErr).error? = none := rfl
@[simp] theorem error?_acqErr (c : TCfg) (e : TErr) : (Event.acq c (.err e) : Event TCfg TErr).error? = some e := rfl
@[simp] theorem error?_xferOk (o b : Bytes) : (Event.xfer o (.ok b) : Event TCfg TErr).error? = none := rfl
@[simp] theorem error?_xferErr (o : Bytes) (e : TErr) : (Event.xfer o (.err e) : Event TCfg TErr).error? = some e := rfl
@[simp] theorem error?_rel : (Event.rel : Event TCfg TErr).error? = none := rfl
@[simp] theorem error?_dstWrite (i : Nat) (v : Word16) : (Event.dstWrite i v : Event TCfg TErr).error? = none := rfl
@[simp] theorem error?_resp (r : Response TErr) : (Event.resp r : Event TCfg TErr).error? = none := rfl

@[simp] theorem xferLen?_acq (c : TCfg) (r : AcqResult TErr) : (Event.acq c r : Event TCfg TErr).xferLen? = none := rfl
@[simp] theorem xferLen?_xfer (o : Bytes) (r : XferResult TErr) : (Event.xfer o r : Event TCfg TErr).xferLen? = some o.len := rfl
@[simp] theorem xferLen?_rel : (Event.rel : Event TCfg TErr).xferLen? = none := rfl
@[simp] theorem xferLen?_dstWrite (i : Nat) (v : Word16) : (Event.dstWrite i v : Event TCfg TErr).xferLen? = none := rfl
@[simp] theorem xferLen?_resp (r : Response TErr) : (Event.resp r : Event TCfg TErr).xferLen? = none := rfl

@[simp] theorem isTransport_acq (c : TCfg) (r : AcqResult TErr) : (Event.acq c r : Event TCfg TErr).isTransport = true := rfl
@[simp] theorem isTransport_xfer (o : Bytes) (r : XferResult TErr) : (Event.xfer o r : Event TCfg TErr).isTransport = true := rfl
@[simp] theorem isTransport_rel : (Event.rel : Event TCfg TErr).isTransport = true := rfl
@[simp] theorem isTransport_dstWrite (i : Nat) (v : Word16) : (Event.dstWrite i v : Event TCfg TErr).isTransport = false := rfl
@[simp] theorem isTransport_resp (r : Response TErr) : (Event.resp r : Event TCfg TErr).isTransport = false := rfl
@[simp] theorem isTransport_hwReset : (Event.hwReset : Event TCfg TErr).isTransport = false := rfl

/-! ### The costs, event by event -/

section
variable (l : List (Event TCfg TErr))

@[simp] theorem xferLens_nil : xferLens ([] : List (Event TCfg TErr)) = [] := rfl
@[simp] theorem xferLens_acq (c : TCfg) (r : AcqResult TErr) : xferLens (.acq c r :: l) = xferLens l := rfl
@[simp] theorem xferLens_xfer (o : Bytes) (r : XferResult TErr) : xferLens (.xfer o r :: l) = o.len :: xferLens l := rfl
@[simp] theorem xferLens_rel : xferLens (.rel :: l) = xferLens l := rfl
@[simp] theorem xferLens_dstWrite (i : Nat) (v : Word16) : xferLens (.dstWrite i v :: l) = xferLens l := rfl

@[simp] theorem acqCount_nil : acqCount ([] : List (Event TCfg TErr)) = 0 := rfl
@[simp] theorem acqCount_acq (c : TCfg) (r : AcqResult TErr) : acqCount (.acq c r :: l) = acqCount l + 1 := by
  simp [acqCount]
@[simp] theorem acqCount_xfer (o : Bytes) (r : XferResult TErr) : acqCount (.xfer o r :: l) = acqCount l := by
  simp [acqCount]
@[simp] theorem acqCount_rel : acqCount (.rel :: l) = acqCount l := by simp [acqCount]
@[simp] theorem acqCount_dstWrite (i : Nat) (v : Word16) : acqCount (.dstWrite i v :: l) = acqCount l := by
  simp [acqCount]

@[simp] theorem relCount_nil : relCount ([] : List (Event TCfg TErr)) = 0 := rfl
@[simp] theorem relCount_acq (c : TCfg) (r : AcqResult TErr) : relCount (.acq c r :: l) = relCount l := by
  simp [relCount]
@[simp] theorem relCount_xfer (o : Bytes) (r : XferResult TErr) : relCount (.xfer o r :: l) = relCount l := by
  simp [relCount]
@[simp] theorem relCount_rel : relCount (.rel :: l) = relCount l + 1 := by simp [relCount]
@[simp] theorem relCount_dstWrite (i : Nat) (v : Word16) : relCount (.dstWrite i v :: l) = relCount l := by
  simp [relCount]

end

/-! ### A log and one more event -/

theorem linkHeld_append (log evs : List (Event TCfg TErr)) : linkHeld (log ++ evs) = evs.foldl linkStep (linkHeld log) :=
  List.foldl_append

theorem shadowOf_append (log evs : List (Event TCfg TErr)) : shadowOf (log ++ evs) = evs.foldl shadowStep (shadowOf log) :=
  List.foldl_append

/-- Once the protocol is broken it stays so. -/
@[simp] theorem foldl_linkStep_none (evs : List (Event TCfg TErr)) : evs.foldl linkStep none = none := by
  induction evs with
  | nil => rfl
  | cons e rest ih => exact ih

/-! ### The events of a BULK_READ -/

section
variable (v : BitVec 2) (i : Nat) (frames : List InFrame)

theorem bulkEvents_response? : ∀ e ∈ (bulkEvents v i frames : List (Event TCfg TErr)), e.response? = none := by
  induction frames generalizing i with
  | nil => simp [bulkEvents]
  | cons f rest ih => simpa [bulkEvents] using ih (i + 1)

@[simp] theorem bulkEvents_linkStep : (bulkEvents v i frames : List (Event TCfg TErr)).foldl linkStep (some true) = some true := by
  induction frames generalizing i with
  | nil => rfl
  | cons f rest ih => exact ih (i + 1)

@[simp] theorem bulkEvents_shadowStep (pa : RegisterConfig × RegisterConfig) :
    (bulkEvents v i frames : List (Event TCfg TErr)).foldl shadowStep pa = (pa.1, if frames = [] then pa.2 else pa.1) := by
  induction frames generalizing i pa with
  | nil => rfl
  | cons f rest ih => simp [bulkEvents, shadowStep, ih, writtenConfig, raw16, zeroBytes]

theorem bulkEvents_wf (h : i + frames.length ≤ 65536) : (bulkEvents v i frames : List (Event TCfg TErr)).all Event.wf = true := by
  induction frames generalizing i with
  | nil => rfl
  | cons f rest ih =>
    simp only [List.length_cons] at h
    simp only [bulkEvents, List.all_cons, Bool.and_eq_true]
    exact ⟨rfl, by simp [Event.wf]; omega, ih (i + 1) (by omega)⟩

@[simp] theorem bulkEvents_xferLens : xferLens (bulkEvents v i frames : List (Event TCfg TErr)) = List.replicate frames.length .two := by
  induction frames generalizing i with
  | nil => rfl
  | cons f rest ih =>
    simp [bulkEvents, ih, List.replicate_succ, zeroBytes, Bytes.len]

@[simp] theorem bulkEvents_acqCount : acqCount (bulkEvents v i frames : List (Event TCfg TErr)) = 0 := by
  induction frames generalizing i with
  | nil => rfl
  | cons f rest ih => simp [bulkEvents, ih]

@[simp] theorem bulkEvents_relCount : relCount (bulkEvents v i frames : List (Event TCfg TErr)) = 0 := by
  induction frames generalizing i with
  | nil => rfl
  | cons f rest ih => simp [bulkEvents, ih]

@[simp] theorem bulkEvents_findError : (bulkEvents v i frames : List (Event TCfg TErr)).findSome? Event.error? = none := by
  induction frames generalizing i with
  | nil => rfl
  | cons f rest ih => simp [bulkEvents, List.findSome?_cons, ih]

@[simp] theorem bulkEvents_countError :
    (bulkEvents v i frames : List (Event TCfg TErr)).countP (fun ev => ev.error?.isSome) = 0 := by
  induction frames generalizing i with
  | nil => rfl
  | cons f rest ih => simp only [bulkEvents, List.countP_cons, ih]; simp

end

/-! ### The costs of two parts -/

@[simp] theorem xferLens_append (xs ys : List (Event TCfg TErr)) : xferLens (xs ++ ys) = xferLens xs ++ xferLens ys := by
  simp [xferLens]

@[simp] theorem acqCount_append (xs ys : List (Event TCfg TErr)) : acqCount (xs ++ ys) = acqCount xs + acqCount ys := by
  simp [acqCount]

@[simp] theorem relCount_append (xs ys : List (Event TCfg TErr)) : relCount (xs ++ ys) = relCount xs + relCount ys := by
  simp [relCount]

end Sys2Proof.Machine
end

