-- ==== Sys2Proof/Laws/Operands.lean ====
section
/-! SUPPORT. The fields of a RegisterConfig, and the outbound and echo words bit by bit (spec 10_state R24, 40_transact
R100, R107). -/

namespace Sys2Proof.Machine

@[simp] theorem rb_withRb (c : RegisterConfig) (b : Bool) : rb (withRb c b) = b := by
  simp only [withRb, configOf, rb, BitVec.getLsbD_append]; simp

/-- Setting the readback flag to what it is changes nothing (R132: `cb = c0`, since `c0.rb = 0`). -/
theorem withRb_self {c : RegisterConfig} {b : Bool} (h : rb c = b) : withRb c b = c := by
  subst h
  apply BitVec.eq_of_getLsbD_eq; intro k hk
  interval_cases k <;>
    simp only [withRb, configOf, incc, inx, bw, ref, seq, rb, BitVec.getLsbD_append, BitVec.getLsbD_extractLsb'] <;>
    simp

/-- The bits of the outbound word. -/
theorem packCfg_bit (c : RegisterConfig) {k : Nat} (hk : k < 16) :
    (packCfg c).getLsbD k =
      if k < 2 then false else if k = 2 then !c.getLsbD 0 else if k < 15 then c.getLsbD (k - 2) else true := by
  interval_cases k <;>
    simp only [packCfg, incc, inx, bw, ref, seq, rb, BitVec.getLsbD_append, BitVec.getLsbD_extractLsb'] <;> simp

/-- The bits of an unpacked echo word. -/
theorem unpackCfg_bit (e : BitVec 14) {k : Nat} (hk : k < 13) :
    (unpackCfg e).getLsbD k = if k = 0 then !e.getLsbD 0 else e.getLsbD k := by
  interval_cases k <;>
    simp only [unpackCfg, configOf, BitVec.getLsbD_append, BitVec.getLsbD_extractLsb'] <;> simp

end Sys2Proof.Machine
end

