-- ==== Sys2Proof/Laws/Ops.lean ====
section
/-! SUPPORT. One lemma per shared operation: everything it can do. -/

namespace Sys2Proof.Machine

open Sys2Proof.Config

variable {TCfg TErr : Type}

section Flow
variable {α β : Type} (s : State TCfg TErr)

@[simp] theorem Flow.andThen_done (x : α) (k : State TCfg TErr → α → Flow TCfg TErr β) : (Flow.done s x).andThen k = k s x := rfl
@[simp] theorem Flow.andThen_hung (k : State TCfg TErr → α → Flow TCfg TErr β) : (Flow.hung s : Flow TCfg TErr α).andThen k = .hung s := rfl
@[simp] theorem Flow.onOk_hung (k : State TCfg TErr → Response TErr → Part TCfg TErr) : (Flow.hung s).onOk k = .hung s := rfl
@[simp] theorem Flow.onOk_done (r : Response TErr) (k : State TCfg TErr → Response TErr → Part TCfg TErr) :
    (Flow.done s r).onOk k = if r.status = .ok then k s r else .done s r := rfl
@[simp] theorem Flow.statusOnly_done (r : Response TErr) : (Flow.done s r).statusOnly = .done s r.statusOnly := rfl
@[simp] theorem Flow.statusOnly_hung : (Flow.hung s).statusOnly = .hung s := rfl
@[simp] theorem Flow.finish_done (r : Response TErr) : (Flow.done s r).finish = .next (s.respond r) := rfl
@[simp] theorem Flow.finish_hung : (Flow.hung s).finish = .next s := rfl
@[simp] theorem orRelease_hung (k : State TCfg TErr → Part TCfg TErr) : orRelease (.hung s) k = .hung s := rfl
@[simp] theorem orRelease_done (r : Response TErr) (k : State TCfg TErr → Part TCfg TErr) :
    orRelease (.done s r) k = if r.status = .ok then k s else .done (release s) r.statusOnly := rfl
end Flow

section Responses
variable (e : TErr) (v : BitVec 2) (wc ws ra : Bool) (inb : Bytes)

@[simp] theorem Response.okPlain_status : (Response.okPlain : Response TErr).status = .ok := rfl
@[simp] theorem Response.transport_status : (Response.transport e).status = .transportFailure := rfl
@[simp] theorem Response.transport_statusOnly : (Response.transport e).statusOnly = .transport e := rfl
@[simp] theorem transactResponse_status : (transactResponse v wc ws ra inb : Response TErr).status = .ok := rfl
@[simp] theorem transactResponse_statusOnly : (transactResponse v wc ws ra inb : Response TErr).statusOnly = .okPlain := rfl
@[simp] theorem transactResponse_sample :
    (transactResponse v wc true ra inb : Response TErr).sample = decodeSample v inb := rfl
end Responses

@[simp] theorem outBytes_len (cwe : Bool) (c : RegisterConfig) (n : XferLen) : (outBytes cwe c n).len = n := by
  cases n <;> rfl

@[simp] theorem inBytes_len (n : XferLen) (b0 b1 b2 b3 : Byte) : (inBytes n b0 b1 b2 b3).len = n := by
  cases n <;> rfl

theorem whenReady_ready {s : State TCfg TErr} (h : s.ready = true) (k : State TCfg TErr → Part TCfg TErr) : whenReady s k = k s := by
  simp [whenReady, h]

theorem whenReady_unready {s : State TCfg TErr} (h : s.ready = false) (k : State TCfg TErr → Part TCfg TErr) :
    whenReady s k = .done s .invalid := by simp [whenReady, h]

section Transport
variable {s : State TCfg TErr} {out : Bytes} {tcfg : TCfg} {b0 b1 b2 b3 : Byte} {e : TErr}

theorem acquire_ok (h : (acqAnswer tcfg s).1 = .ok) :
    acquire tcfg s = .done ((acqAnswer tcfg s).2.emit (.acq tcfg .ok)) .ok := by simp [acquire, h]

theorem acquire_err (h : (acqAnswer tcfg s).1 = .err e) :
    acquire tcfg s = .done ((acqAnswer tcfg s).2.emit (.acq tcfg (.err e))) (.err e) := by simp [acquire, h]

theorem acquire_never (h : (acqAnswer tcfg s).1 = .never) :
    acquire tcfg s = .hung ((acqAnswer tcfg s).2.wait (.acquire tcfg)) := by simp [acquire, h]

theorem xfer_ok (h : (xferAnswer out s).1 = .ok b0 b1 b2 b3) :
    xfer out s = .done ((xferAnswer out s).2.emit (.xfer out (.ok (inBytes out.len b0 b1 b2 b3))))
      (.ok (inBytes out.len b0 b1 b2 b3)) := by simp [xfer, h]

theorem xfer_err (h : (xferAnswer out s).1 = .err e) :
    xfer out s = .done ((xferAnswer out s).2.emit (.xfer out (.err e))) (.err e) := by simp [xfer, h]

theorem xfer_never (h : (xferAnswer out s).1 = .never) :
    xfer out s = .hung ((xferAnswer out s).2.wait (.xfer out)) := by simp [xfer, h]
end Transport

section Transact
variable (cwe : Bool) (c : RegisterConfig) (wc ws : Bool) (s : State TCfg TErr)

/-- The bytes `transact` sends (R101, R102). -/
abbrev transactOut : Bytes := outBytes cwe c (xferLen wc (rbAct s))

variable {cwe c wc ws s} {b0 b1 b2 b3 : Byte} {e : TErr}

theorem transact_ok (h : (xferAnswer (transactOut cwe c wc s) s).1 = .ok b0 b1 b2 b3) :
    transact cwe c wc ws s =
      .done (((xferAnswer (transactOut cwe c wc s) s).2.emit (.xfer (transactOut cwe c wc s)
          (.ok (inBytes (xferLen wc (rbAct s)) b0 b1 b2 b3)))).advance cwe c)
        (transactResponse s.v wc ws (rbAct s) (inBytes (xferLen wc (rbAct s)) b0 b1 b2 b3)) := by
  simp [transact, xfer_ok h]

theorem transact_err (h : (xferAnswer (transactOut cwe c wc s) s).1 = .err e) :
    transact cwe c wc ws s =
      .done ((xferAnswer (transactOut cwe c wc s) s).2.emit (.xfer (transactOut cwe c wc s) (.err e)))
        (.transport e) := by simp [transact, xfer_err h]

theorem transact_never (h : (xferAnswer (transactOut cwe c wc s) s).1 = .never) :
    transact cwe c wc ws s =
      .hung ((xferAnswer (transactOut cwe c wc s) s).2.wait (.xfer (transactOut cwe c wc s))) := by
  simp [transact, xfer_never h]

end Transact

/-- `Transact` in one equation: the state after it written out, by the transport's answer (R110, R111, R58). -/
theorem transact_eq (cwe : Bool) (c : RegisterConfig) (wc ws : Bool) (s : State TCfg TErr) :
    transact cwe c wc ws s =
      match takeXfer (transactOut cwe c wc s) s.xferAnswers s.draws with
      | (.ok b0 b1 b2 b3, q, d) =>
        .done { s with
            p := if cwe then c else s.p, a := s.p, seqStep := s.seqStep + 1, xferAnswers := q, draws := d
            log := s.log ++ [.xfer (transactOut cwe c wc s) (.ok (inBytes (xferLen wc (rbAct s)) b0 b1 b2 b3))] }
          (transactResponse s.v wc ws (rbAct s) (inBytes (xferLen wc (rbAct s)) b0 b1 b2 b3))
      | (.err e, q, d) =>
        .done { s with
            xferAnswers := q, draws := d, log := s.log ++ [.xfer (transactOut cwe c wc s) (.err e)] } (.transport e)
      | (.never, q, d) =>
        .hung { s with xferAnswers := q, draws := d, waiting := some (.xfer (transactOut cwe c wc s)) } := by
  rcases h : takeXfer (transactOut cwe c wc s) s.xferAnswers s.draws with ⟨ans, q, d⟩
  cases ans <;> simp [transact, xfer, xferAnswer, h, State.emit, State.advance, State.wait, advanceSlots]

/-- `Acquire` in one equation: the state after it written out, by the transport's answer (R41, R58). -/
theorem acquire_eq (tcfg : TCfg) (s : State TCfg TErr) :
    acquire tcfg s =
      match takeAcq tcfg s.acqAnswers s.draws with
      | (.ok, q, d) => .done { s with acqAnswers := q, draws := d, log := s.log ++ [.acq tcfg .ok] } .ok
      | (.err e, q, d) =>
        .done { s with acqAnswers := q, draws := d, log := s.log ++ [.acq tcfg (.err e)] } (.err e)
      | (.never, q, d) => .hung { s with acqAnswers := q, draws := d, waiting := some (.acquire tcfg) } := by
  rcases h : takeAcq tcfg s.acqAnswers s.draws with ⟨ans, q, d⟩
  cases ans <;> simp [acquire, acqAnswer, h, State.emit, State.wait]

/-- Everything `Acquire` can do, whatever the transport answers. -/
theorem acquire_cases (tcfg : TCfg) (s : State TCfg TErr) :
    (acquire tcfg s = .done ((acqAnswer tcfg s).2.emit (.acq tcfg .ok)) .ok) ∨
    (∃ e, acquire tcfg s = .done ((acqAnswer tcfg s).2.emit (.acq tcfg (.err e))) (.err e)) ∨
    (acquire tcfg s = .hung ((acqAnswer tcfg s).2.wait (.acquire tcfg))) := by
  cases h : (acqAnswer tcfg s).1 with
  | ok => exact .inl (acquire_ok h)
  | err e => exact .inr (.inl ⟨e, acquire_err h⟩)
  | never => exact .inr (.inr (acquire_never h))

/-- Everything `Transact` can do, whatever the transport answers (R110, R111, R58). -/
theorem transact_cases (cwe : Bool) (c : RegisterConfig) (wc ws : Bool) (s : State TCfg TErr) :
    (∃ inb : Bytes, inb.len = xferLen wc (rbAct s) ∧ transact cwe c wc ws s =
      .done (((xferAnswer (transactOut cwe c wc s) s).2.emit
          (.xfer (transactOut cwe c wc s) (.ok inb))).advance cwe c)
        (transactResponse s.v wc ws (rbAct s) inb)) ∨
    (∃ e, transact cwe c wc ws s =
      .done ((xferAnswer (transactOut cwe c wc s) s).2.emit (.xfer (transactOut cwe c wc s) (.err e)))
        (.transport e)) ∨
    (transact cwe c wc ws s =
      .hung ((xferAnswer (transactOut cwe c wc s) s).2.wait (.xfer (transactOut cwe c wc s)))) := by
  cases h : (xferAnswer (transactOut cwe c wc s) s).1 with
  | ok b0 b1 b2 b3 => exact .inl ⟨_, inBytes_len _ _ _ _ _, transact_ok h⟩
  | err e => exact .inr (.inl ⟨e, transact_err h⟩)
  | never => exact .inr (.inr (transact_never h))

/-- An invariant of parts of a command: what holds of every state they may end in, with the response they end with. -/
def Flow.Ends {α : Type} (f : Flow TCfg TErr α) (done : State TCfg TErr → α → Prop) (hung : State TCfg TErr → Prop) : Prop :=
  match f with
  | .done s x => done s x
  | .hung s => hung s

@[simp] theorem Flow.ends_done {α : Type} (s : State TCfg TErr) (x : α) (d : State TCfg TErr → α → Prop) (h : State TCfg TErr → Prop) :
    (Flow.done s x).Ends d h ↔ d s x := Iff.rfl

@[simp] theorem Flow.ends_hung {α : Type} (s : State TCfg TErr) (d : State TCfg TErr → α → Prop) (h : State TCfg TErr → Prop) :
    (Flow.hung s : Flow TCfg TErr α).Ends d h ↔ h s := Iff.rfl

/-- One part after another: the second starts where the first is done. -/
theorem Flow.ends_andThen {α β : Type} {f : Flow TCfg TErr α} {k : State TCfg TErr → α → Flow TCfg TErr β} {d : State TCfg TErr → α → Prop}
    {d' : State TCfg TErr → β → Prop} {h : State TCfg TErr → Prop} (hf : f.Ends d h) (hk : ∀ s x, d s x → (k s x).Ends d' h) :
    (f.andThen k).Ends d' h := by
  cases f with
  | done s x => exact hk s x hf
  | hung s => exact hf

/-- A command answers a next state: its parts' last state, with the response where they are done. -/
theorem Flow.finish_eq_next {f : Part TCfg TErr} {t : State TCfg TErr} {d : State TCfg TErr → Response TErr → Prop} {h : State TCfg TErr → Prop}
    (hf : f.Ends d h) (ht : f.finish = .next t) : (∃ s r, d s r ∧ t = s.respond r) ∨ h t := by
  cases f with
  | done s r => exact .inl ⟨s, r, hf, by simpa [Flow.finish, Flow.deliver] using ht.symm⟩
  | hung s => right; simp only [finish_hung, Host.Outcome.next.injEq] at ht; exact ht ▸ hf

/-- What BULK_READ's loop keeps: a property that a successful conversion-only exchange followed by its DST write keeps
holds of every state the loop may reach; `fail` and `hung` say the same of its two other ways to end. -/
theorem bulkLoop_ends {inv : Nat → State TCfg TErr → Prop} {fail : State TCfg TErr → Response TErr → Prop} {hung : State TCfg TErr → Prop}
    (N : Nat)
    (step : ∀ i s, i < N → inv i s → (transact false zeroConfig false true s).Ends
      (fun s' r => if r.status = .ok then inv (i + 1) (s'.writeDst i r.sample) else fail s' r.statusOnly) hung) :
    ∀ n i s, i + n = N → inv i s →
      (bulkLoop n i s).Ends (fun s' r => (inv N s' ∧ r = .okPlain) ∨ fail s' r) hung := by
  intro n
  induction n with
  | zero => intro i s hi h; exact .inl ⟨by simpa [← hi] using h, rfl⟩
  | succ n ih =>
    intro i s hi h
    refine Flow.ends_andThen (step i s (by omega) h) ?_
    intro s' r hr
    split
    · rename_i hok; rw [if_pos hok] at hr; exact ih (i + 1) _ (by omega) hr
    · rename_i hok; rw [if_neg hok] at hr; exact .inr hr

end Sys2Proof.Machine
end

