-- ==== Sys2Proof/Laws/Parametric.lean ====
section
/-! SUPPORT. The machine whose types the host fixes is the one with type arguments, at the types of Config (spec 00_scope R7). -/

namespace Sys2Proof.Machine

/-- `exec` is `execOf` at the types of Config. -/
theorem exec_eq_execOf (i : Instr) (s : State) : exec i s = execOf i s := by cases i <;> rfl

/-- `step` is `stepOf` at the types of Config. -/
theorem step_eq_stepOf (s : State) : step s = stepOf s := by
  unfold step stepOf
  congr 1
  funext i s
  exact exec_eq_execOf i s

/-- The machine behind the host's interface is `coreOf` at the types of Config. -/
theorem core_eq_coreOf : Sys2Proof.core = coreOf Config.TCfg Config.TErr := by
  simp only [Sys2Proof.core, coreOf, State.reset, show step = stepOf from funext step_eq_stepOf]

end Sys2Proof.Machine
end

