-- ==== Sys2Proof/Laws/Exec.lean ====
section
/-! SUPPORT. Said once: every state a command may lead to (`ExecTo`), whatever the transport answers, with the state
written out. Claims over all commands go by cases on it instead of unfolding the meanings. -/

namespace Sys2Proof.Machine

open Sys2Proof.Config

variable {TCfg TErr : Type}

/-- The DST writes of successful samples of a BULK_READ from index `i` on. -/
def bulkWrites (v : BitVec 2) : Nat → List InFrame → Dst → Dst
  | _, [], d => d
  | i, f :: rest, d => bulkWrites v (i + 1) rest (dstWrite d i (decodeSample v f.two))

/-- The state after the successful samples `frames` of a BULK_READ that starts at index `i` in `s`, with these inputs
left. -/
def bulkState (s : State TCfg TErr) (i : Nat) (frames : List InFrame) (q : List (XferAnswer TErr)) (d : Nat) : State TCfg TErr :=
  { s with
    a := if frames = [] then s.a else s.p
    seqStep := s.seqStep + frames.length
    xferAnswers := q
    draws := d
    dst := bulkWrites s.v i frames s.dst
    log := s.log ++ bulkEvents s.v i frames }

theorem bulkWrites_wf (v : BitVec 2) (frames : List InFrame) (i : Nat) {d : Dst} (hi : i + frames.length ≤ 65536)
    (h : dstWf d = true) : dstWf (bulkWrites v i frames d) = true := by
  induction frames generalizing i d with
  | nil => exact h
  | cons f rest ih =>
    simp only [List.length_cons] at hi
    exact ih (i + 1) (by omega) (dstWrite_wf _ (by omega) h)

/-- What DST reads as after the writes of a BULK_READ. -/
theorem dstRead_bulkWrites (v : BitVec 2) (frames : List InFrame) (i j : Nat) (d : Dst) :
    dstRead (bulkWrites v i frames d) j =
      if j < i then dstRead d j else
        match frames[j - i]? with
        | some f => some (decodeSample v f.two)
        | none => dstRead d j := by
  induction frames generalizing i d with
  | nil => simp [bulkWrites]
  | cons f rest ih =>
    rw [bulkWrites, ih, dstRead_dstWrite]
    rcases Nat.lt_trichotomy j i with h | h | h
    · simp [h, show j < i + 1 by omega, show j ≠ i by omega]
    · subst h; simp
    · have e : j - i = (j - (i + 1)) + 1 := by omega
      simp [show ¬ j < i by omega, show ¬ j < i + 1 by omega, show j ≠ i by omega, e]

/-- One successful sample, and then the rest of the loop. -/
theorem bulkState_cons (s : State TCfg TErr) (i : Nat) (f : InFrame) (rest : List InFrame) (q q' : List (XferAnswer TErr)) (d d' : Nat) :
    bulkState (bulkState s i [f] q d) (i + 1) rest q' d' = bulkState s i (f :: rest) q' d' := by
  simp [bulkState, bulkWrites, bulkEvents]; omega

/-- Where BULK_READ's loop may end: after all its samples, at a failed exchange, or waiting on one. -/
theorem bulkLoop_cases (n i : Nat) (s : State TCfg TErr) :
    ∃ (frames : List InFrame) (q : List (XferAnswer TErr)) (d : Nat),
      (frames.length = n ∧ bulkLoop n i s = .done (bulkState s i frames q d) .okPlain) ∨
      (frames.length < n ∧ ∃ e, bulkLoop n i s =
        .done { bulkState s i frames q d with
          log := (bulkState s i frames q d).log ++ [.xfer zeroBytes (.err e)] } (.transport e)) ∨
      (frames.length < n ∧ bulkLoop n i s =
        .hung { bulkState s i frames q d with waiting := some (.xfer zeroBytes) }) := by
  induction n generalizing i s with
  | zero => exact ⟨[], s.xferAnswers, s.draws, .inl ⟨rfl, by simp [bulkLoop, bulkState, bulkEvents, bulkWrites]⟩⟩
  | succ n ih =>
    have ho : transactOut false zeroConfig false s = zeroBytes := rfl
    rcases h : takeXfer zeroBytes s.xferAnswers s.draws with ⟨⟨b0, b1, b2, b3⟩ | e | _, q, d⟩
    · obtain ⟨frames, q', d', hc⟩ := ih (i + 1) (bulkState s i [⟨b0, b1, b2, b3⟩] q d)
      have step : bulkLoop (n + 1) i s = bulkLoop n (i + 1) (bulkState s i [⟨b0, b1, b2, b3⟩] q d) := by
        simp [bulkLoop, transact_eq, ho, h, State.writeDst, bulkState, bulkEvents, bulkWrites, xferLen, inBytes,
          InFrame.two]
      refine ⟨⟨b0, b1, b2, b3⟩ :: frames, q', d', ?_⟩
      simp only [step, bulkState_cons, List.length_cons, Nat.add_lt_add_iff_right, Nat.add_right_cancel_iff] at hc ⊢
      exact hc
    · refine ⟨[], q, d, .inr (.inl ⟨by simp, e, ?_⟩)⟩
      simp [bulkLoop, transact_eq, ho, h, bulkState, bulkEvents, bulkWrites]
    · refine ⟨[], q, d, .inr (.inr ⟨by simp, ?_⟩)⟩
      simp [bulkLoop, transact_eq, ho, h, bulkState, bulkEvents, bulkWrites]

/-- `execOf i s` may answer `.next t`: every case, by command and by where it ends. -/
inductive ExecTo (s : State TCfg TErr) : Instr TCfg → State TCfg TErr → Prop
  | uninit (i : Instr TCfg) (hr : s.ready = false) (hi : ∀ vtag cfg tcfg, i ≠ .init vtag cfg tcfg) :
    ExecTo s i (s.respond .invalid)
  | transactOk (cwe wc ws : Bool) (c : RegisterConfig) (q d) (inb : Bytes) (hr : s.ready = true)
    (hl : inb.len = xferLen wc (rbAct s)) :
    ExecTo s (.transact cwe wc ws c)
      (State.respond (transactResponse s.v wc ws (rbAct s) inb)
        { s with p := if cwe then c else s.p, a := s.p, seqStep := s.seqStep + 1, xferAnswers := q, draws := d,
                 log := s.log ++ [.xfer (transactOut cwe c wc s) (.ok inb)] })
  | transactErr (cwe wc ws : Bool) (c : RegisterConfig) (q d e) (hr : s.ready = true) :
    ExecTo s (.transact cwe wc ws c)
      (State.respond (.transport e)
        { s with xferAnswers := q, draws := d, log := s.log ++ [.xfer (transactOut cwe c wc s) (.err e)] })
  | transactHung (cwe wc ws : Bool) (c : RegisterConfig) (q d) (hr : s.ready = true) :
    ExecTo s (.transact cwe wc ws c)
      { s with xferAnswers := q, draws := d, waiting := some (.xfer (transactOut cwe c wc s)) }
  | writeOk (c : RegisterConfig) (q d) (inb : Bytes) (hr : s.ready = true) (hl : inb.len = .two) :
    ExecTo s (.writeConfig c)
      (State.respond .okPlain
        { s with p := c, a := s.p, seqStep := s.seqStep + 1, xferAnswers := q, draws := d,
                 log := s.log ++ [.xfer (outBytes true c .two) (.ok inb)] })
  | writeErr (c : RegisterConfig) (q d e) (hr : s.ready = true) :
    ExecTo s (.writeConfig c)
      (State.respond (.transport e)
        { s with xferAnswers := q, draws := d, log := s.log ++ [.xfer (outBytes true c .two) (.err e)] })
  | writeHung (c : RegisterConfig) (q d) (hr : s.ready = true) :
    ExecTo s (.writeConfig c)
      { s with xferAnswers := q, draws := d, waiting := some (.xfer (outBytes true c .two)) }
  | shortOk (q d) (inb : Bytes) (hr : s.ready = true) (hb : rb s.a = true) (hl : inb.len = .four) :
    ExecTo s .readConfig
      (State.respond (transactResponse s.v true false true inb)
        { s with p := s.p, a := s.p, seqStep := s.seqStep + 1, xferAnswers := q, draws := d,
                 log := s.log ++ [.xfer (outBytes false zeroConfig .four) (.ok inb)] })
  | shortErr (q d e) (hr : s.ready = true) (hb : rb s.a = true) :
    ExecTo s .readConfig
      (State.respond (.transport e)
        { s with xferAnswers := q, draws := d, log := s.log ++ [.xfer (outBytes false zeroConfig .four) (.err e)] })
  | shortHung (q d) (hr : s.ready = true) (hb : rb s.a = true) :
    ExecTo s .readConfig
      { s with xferAnswers := q, draws := d, waiting := some (.xfer (outBytes false zeroConfig .four)) }
  | longAErr (q d e) (hr : s.ready = true) (hb : rb s.a = false) :
    ExecTo s .readConfig
      (State.respond (.transport e)
        { s with xferAnswers := q, draws := d,
                 log := s.log ++ [.xfer (outBytes true (withRb s.a true) .two) (.err e)] })
  | longAHung (q d) (hr : s.ready = true) (hb : rb s.a = false) :
    ExecTo s .readConfig
      { s with xferAnswers := q, draws := d, waiting := some (.xfer (outBytes true (withRb s.a true) .two)) }
  | longBErr (q d e) (inb : Bytes) (hr : s.ready = true) (hb : rb s.a = false) (hl : inb.len = .two) :
    ExecTo s .readConfig
      (State.respond (.transport e)
        { s with p := withRb s.a true, a := s.p, seqStep := s.seqStep + 1, xferAnswers := q, draws := d,
                 log := s.log ++ [.xfer (outBytes true (withRb s.a true) .two) (.ok inb),
                   .xfer (outBytes true s.a .two) (.err e)] })
  | longBHung (q d) (inb : Bytes) (hr : s.ready = true) (hb : rb s.a = false) (hl : inb.len = .two) :
    ExecTo s .readConfig
      { s with p := withRb s.a true, a := s.p, seqStep := s.seqStep + 1, xferAnswers := q, draws := d,
               waiting := some (.xfer (outBytes true s.a .two)),
               log := s.log ++ [.xfer (outBytes true (withRb s.a true) .two) (.ok inb)] }
  | longCErr (q d e) (inb inb2 : Bytes) (hr : s.ready = true) (hb : rb s.a = false) (hl : inb.len = .two)
    (hl2 : inb2.len = .two) :
    ExecTo s .readConfig
      (State.respond (.transport e)
        { s with p := s.a, a := withRb s.a true, seqStep := s.seqStep + 2, xferAnswers := q, draws := d,
                 log := s.log ++ [.xfer (outBytes true (withRb s.a true) .two) (.ok inb),
                   .xfer (outBytes true s.a .two) (.ok inb2), .xfer (outBytes false zeroConfig .four) (.err e)] })
  | longCHung (q d) (inb inb2 : Bytes) (hr : s.ready = true) (hb : rb s.a = false) (hl : inb.len = .two)
    (hl2 : inb2.len = .two) :
    ExecTo s .readConfig
      { s with p := s.a, a := withRb s.a true, seqStep := s.seqStep + 2, xferAnswers := q, draws := d,
               waiting := some (.xfer (outBytes false zeroConfig .four)),
               log := s.log ++ [.xfer (outBytes true (withRb s.a true) .two) (.ok inb),
                 .xfer (outBytes true s.a .two) (.ok inb2)] }
  | longOk (q d) (inb inb2 inb3 : Bytes) (hr : s.ready = true) (hb : rb s.a = false) (hl : inb.len = .two)
    (hl2 : inb2.len = .two) (hl3 : inb3.len = .four) :
    ExecTo s .readConfig
      (State.respond (transactResponse s.v true false true inb3)
        { s with p := s.a, a := s.a, seqStep := s.seqStep + 3, xferAnswers := q, draws := d,
                 log := s.log ++ [.xfer (outBytes true (withRb s.a true) .two) (.ok inb),
                   .xfer (outBytes true s.a .two) (.ok inb2), .xfer (outBytes false zeroConfig .four) (.ok inb3)] })
  | bulkNull (count : BitVec 16) (hr : s.ready = true) : ExecTo s (.bulkRead false count) (s.respond .invalid)
  | bulkOk (count : BitVec 16) (frames q d) (hr : s.ready = true) (hl : frames.length = count.toNat) :
    ExecTo s (.bulkRead true count) (State.respond .okPlain (bulkState s 0 frames q d))
  | bulkErr (count : BitVec 16) (frames q d e) (hr : s.ready = true) (hl : frames.length < count.toNat) :
    ExecTo s (.bulkRead true count)
      (State.respond (.transport e)
        { bulkState s 0 frames q d with log := (bulkState s 0 frames q d).log ++ [.xfer zeroBytes (.err e)] })
  | bulkHung (count : BitVec 16) (frames q d) (hr : s.ready = true) (hl : frames.length < count.toNat) :
    ExecTo s (.bulkRead true count) { bulkState s 0 frames q d with waiting := some (.xfer zeroBytes) }
  | initTag (vtag cfg tcfg) (hv : 3 < vtag.toNat) : ExecTo s (.init vtag cfg tcfg) (s.respond .invalid)
  | initInUse (vtag cfg tcfg) (hv : vtag.toNat ≤ 3) (hr : s.ready = true) :
    ExecTo s (.init vtag cfg tcfg) (s.respond .allocation)
  | initAcqErr (vtag cfg tcfg q d e) (hv : vtag.toNat ≤ 3) (hr : s.ready = false) :
    ExecTo s (.init vtag cfg tcfg)
      (State.respond (.transport e)
        { s with v := vtag.extractLsb' 0 2, p := zeroConfig, a := zeroConfig, acqAnswers := q, draws := d,
                 log := s.log ++ [.acq tcfg (.err e)] })
  | initAcqHung (vtag cfg tcfg q d) (hv : vtag.toNat ≤ 3) (hr : s.ready = false) :
    ExecTo s (.init vtag cfg tcfg)
      { s with v := vtag.extractLsb' 0 2, p := zeroConfig, a := zeroConfig, acqAnswers := q, draws := d,
               waiting := some (.acquire tcfg) }
  | initWriteErr (vtag cfg tcfg qa q d e) (hv : vtag.toNat ≤ 3) (hr : s.ready = false) :
    ExecTo s (.init vtag cfg tcfg)
      (State.respond (.transport e)
        { s with v := vtag.extractLsb' 0 2, p := zeroConfig, a := zeroConfig, acqAnswers := qa, xferAnswers := q,
                 draws := d, log := s.log ++ [.acq tcfg .ok, .xfer (outBytes true cfg .two) (.err e), .rel] })
  | initWriteHung (vtag cfg tcfg qa q d) (hv : vtag.toNat ≤ 3) (hr : s.ready = false) :
    ExecTo s (.init vtag cfg tcfg)
      { s with v := vtag.extractLsb' 0 2, p := zeroConfig, a := zeroConfig, acqAnswers := qa, xferAnswers := q,
               draws := d, waiting := some (.xfer (outBytes true cfg .two)), log := s.log ++ [.acq tcfg .ok] }
  | initConvErr (vtag cfg tcfg qa q d e) (inb : Bytes) (hv : vtag.toNat ≤ 3) (hr : s.ready = false)
    (hl : inb.len = .two) :
    ExecTo s (.init vtag cfg tcfg)
      (State.respond (.transport e)
        { s with v := vtag.extractLsb' 0 2, p := cfg, a := zeroConfig, seqStep := s.seqStep + 1, acqAnswers := qa,
                 xferAnswers := q, draws := d,
                 log := s.log ++ [.acq tcfg .ok, .xfer (outBytes true cfg .two) (.ok inb), .xfer zeroBytes (.err e),
                   .rel] })
  | initConvHung (vtag cfg tcfg qa q d) (inb : Bytes) (hv : vtag.toNat ≤ 3) (hr : s.ready = false)
    (hl : inb.len = .two) :
    ExecTo s (.init vtag cfg tcfg)
      { s with v := vtag.extractLsb' 0 2, p := cfg, a := zeroConfig, seqStep := s.seqStep + 1, acqAnswers := qa,
               xferAnswers := q, draws := d, waiting := some (.xfer zeroBytes),
               log := s.log ++ [.acq tcfg .ok, .xfer (outBytes true cfg .two) (.ok inb)] }
  | initOk (vtag cfg tcfg qa q d) (inb inb2 : Bytes) (hv : vtag.toNat ≤ 3) (hr : s.ready = false)
    (hl : inb.len = .two) (hl2 : inb2.len = .two) :
    ExecTo s (.init vtag cfg tcfg)
      (State.respond .okPlain
        { s with v := vtag.extractLsb' 0 2, ready := true, p := cfg, a := cfg, seqStep := s.seqStep + 2,
                 acqAnswers := qa, xferAnswers := q, draws := d,
                 log := s.log ++ [.acq tcfg .ok, .xfer (outBytes true cfg .two) (.ok inb),
                   .xfer zeroBytes (.ok inb2)] })
  | teardown (hr : s.ready = true) :
    ExecTo s .teardown (State.respond .okPlain { s with ready := false, log := s.log ++ [.rel] })

section
variable {s t : State TCfg TErr}

theorem execTransact_cases {cwe wc ws : Bool} {c : RegisterConfig} (hr : s.ready = true)
    (h : execTransact cwe wc ws c s = .next t) : ExecTo s (.transact cwe wc ws c) t := by
  rcases k : takeXfer (transactOut cwe c wc s) s.xferAnswers s.draws with ⟨⟨b0, b1, b2, b3⟩ | e | _, q, d⟩ <;>
    simp only [execTransact, whenReady_ready hr, transact_eq, k] at h <;> simp at h <;> subst h
  · exact .transactOk _ _ _ _ _ _ _ hr (inBytes_len _ _ _ _ _)
  · exact .transactErr _ _ _ _ _ _ _ hr
  · exact .transactHung _ _ _ _ _ _ hr

theorem execWriteConfig_cases {c : RegisterConfig} (hr : s.ready = true)
    (h : execWriteConfig c s = .next t) : ExecTo s (.writeConfig c) t := by
  have ho : transactOut true c false s = outBytes true c .two := rfl
  rcases k : takeXfer (outBytes true c .two) s.xferAnswers s.draws with ⟨⟨b0, b1, b2, b3⟩ | e | _, q, d⟩ <;>
    simp only [execWriteConfig, whenReady_ready hr, transact_eq, ho, k] at h <;> simp at h <;> subst h
  · exact .writeOk _ _ _ _ hr (inBytes_len _ _ _ _ _)
  · exact .writeErr _ _ _ _ hr
  · exact .writeHung _ _ _ hr

theorem execReadConfig_short_cases (hr : s.ready = true) (hb : rb s.a = true)
    (h : execReadConfig s = .next t) : ExecTo s .readConfig t := by
  have ho : transactOut false zeroConfig true s = outBytes false zeroConfig .four := by
    simp [transactOut, rbAct, hb, xferLen]
  rcases k : takeXfer (outBytes false zeroConfig .four) s.xferAnswers s.draws with
      ⟨⟨b0, b1, b2, b3⟩ | e | _, q, d⟩ <;>
    simp only [execReadConfig, whenReady_ready hr, confirmRead, transact_eq, ho, k] at h <;>
    simp [rbAct, hb] at h <;> subst h
  · exact .shortOk _ _ _ hr hb (inBytes_len _ _ _ _ _)
  · exact .shortErr _ _ _ hr hb
  · exact .shortHung _ _ hr hb

theorem execReadConfig_long_cases (hr : s.ready = true) (hb : rb s.a = false)
    (h : execReadConfig s = .next t) : ExecTo s .readConfig t := by
  simp only [execReadConfig, whenReady_ready hr, rbAct, hb, Bool.false_eq_true, if_false, readConfigLong,
    withRb_self hb] at h
  rcases k1 : takeXfer (outBytes true (withRb s.a true) .two) s.xferAnswers s.draws with
    ⟨⟨b0, b1, b2, b3⟩ | e | _, q, d⟩
  · rcases k2 : takeXfer (outBytes true s.a .two) q d with ⟨⟨b0, b1, b2, b3⟩ | e | _, q2, d2⟩
    · rcases k3 : takeXfer (outBytes false zeroConfig .four) q2 d2 with ⟨⟨b0, b1, b2, b3⟩ | e | _, q3, d3⟩ <;>
        simp [transact_eq, transactOut, k1, k2, confirmRead, rbAct, xferLen, k3] at h <;> subst h
      · exact .longOk _ _ _ _ _ hr hb rfl rfl rfl
      · exact .longCErr _ _ _ _ _ hr hb rfl rfl
      · exact .longCHung _ _ _ _ hr hb rfl rfl
    · simp [transact_eq, transactOut, xferLen, k1, k2] at h; subst h; exact .longBErr _ _ _ _ hr hb rfl
    · simp [transact_eq, transactOut, xferLen, k1, k2] at h; subst h; exact .longBHung _ _ _ hr hb rfl
  · simp [transact_eq, transactOut, xferLen, k1] at h; subst h; exact .longAErr _ _ _ hr hb
  · simp [transact_eq, transactOut, xferLen, k1] at h; subst h; exact .longAHung _ _ hr hb

theorem execBulkRead_cases {dv : Bool} {count : BitVec 16} (hr : s.ready = true)
    (h : execBulkRead dv count s = .next t) : ExecTo s (.bulkRead dv count) t := by
  cases dv with
  | false => simp [execBulkRead, whenReady_ready hr] at h; subst h; exact .bulkNull _ hr
  | true =>
    simp only [execBulkRead, whenReady_ready hr, if_true] at h
    obtain ⟨frames, q, d, ⟨hl, hb⟩ | ⟨hl, e, hb⟩ | ⟨hl, hb⟩⟩ := bulkLoop_cases count.toNat 0 s <;>
      simp only [hb, Flow.finish_done, Flow.finish_hung, Host.Outcome.next.injEq] at h <;> subst h
    · exact .bulkOk _ _ _ _ hr hl
    · exact .bulkErr _ _ _ _ _ hr hl
    · exact .bulkHung _ _ _ _ hr hl

theorem execInit_cases {vtag : BitVec 8} {cfg : RegisterConfig} {tcfg : TCfg}
    (h : execInit vtag cfg tcfg s = .next t) : ExecTo s (.init vtag cfg tcfg) t := by
  simp only [execInit] at h
  split at h
  · rename_i hv; simp at h; subst h; exact .initTag _ _ _ hv
  rename_i hv
  replace hv : vtag.toNat ≤ 3 := by omega
  cases hr : s.ready with
  | true => simp [hr] at h; subst h; exact .initInUse _ _ _ hv hr
  | false =>
    simp only [hr, Bool.false_eq_true, if_false] at h
    have o1 : ∀ s : State TCfg TErr, transactOut true cfg false s = outBytes true cfg .two := fun _ => rfl
    have o2 : ∀ s : State TCfg TErr, transactOut false zeroConfig false s = zeroBytes := fun _ => rfl
    rcases k0 : takeAcq tcfg s.acqAnswers s.draws with ⟨_ | e | _, qa, d⟩
    · rcases k1 : takeXfer (outBytes true cfg .two) s.xferAnswers d with ⟨⟨b0, b1, b2, b3⟩ | e | _, q1, d1⟩
      · rcases k2 : takeXfer zeroBytes q1 d1 with ⟨⟨c0, c1, c2, c3⟩ | e | _, q2, d2⟩ <;>
          simp [initAllocated, State.allocate, acquire_eq, k0, initTransfers, transact_eq, o1, o2, k1, k2, release,
            State.emit, State.setReady, xferLen, inBytes] at h <;> subst h
        · exact .initOk _ _ _ _ _ _ _ _ hv hr rfl rfl
        · exact .initConvErr _ _ _ _ _ _ _ _ hv hr rfl
        · exact .initConvHung _ _ _ _ _ _ _ hv hr rfl
      · simp [initAllocated, State.allocate, acquire_eq, k0, initTransfers, transact_eq, o1, o2, k1, release,
          State.emit] at h
        subst h; exact .initWriteErr _ _ _ _ _ _ _ hv hr
      · simp [initAllocated, State.allocate, acquire_eq, k0, initTransfers, transact_eq, o1, o2, k1] at h
        subst h; exact .initWriteHung _ _ _ _ _ _ hv hr
    · simp [initAllocated, State.allocate, acquire_eq, k0] at h
      subst h; exact .initAcqErr _ _ _ _ _ _ hv hr
    · simp [initAllocated, State.allocate, acquire_eq, k0] at h
      subst h; exact .initAcqHung _ _ _ _ _ hv hr

/-- Every next state of every command is one of the cases of `ExecTo`. -/
theorem execOf_cases {i : Instr TCfg} (h : execOf i s = .next t) : ExecTo s i t := by
  cases hr : s.ready with
  | false =>
    cases i with
    | init vtag cfg tcfg => exact execInit_cases h
    | transact _ _ _ _ =>
      simp [execOf, execTransact, whenReady_unready hr] at h; subst h; exact .uninit _ hr (by simp)
    | writeConfig _ =>
      simp [execOf, execWriteConfig, whenReady_unready hr] at h; subst h; exact .uninit _ hr (by simp)
    | readConfig =>
      simp [execOf, execReadConfig, whenReady_unready hr] at h; subst h; exact .uninit _ hr (by simp)
    | bulkRead _ _ =>
      simp [execOf, execBulkRead, whenReady_unready hr] at h; subst h; exact .uninit _ hr (by simp)
    | teardown =>
      simp [execOf, execTeardown, whenReady_unready hr] at h; subst h; exact .uninit _ hr (by simp)
  | true =>
    cases i with
    | transact _ _ _ _ => exact execTransact_cases hr h
    | writeConfig _ => exact execWriteConfig_cases hr h
    | readConfig =>
      cases hb : rb s.a with
      | true => exact execReadConfig_short_cases hr hb h
      | false => exact execReadConfig_long_cases hr hb h
    | bulkRead _ _ => exact execBulkRead_cases hr h
    | init _ _ _ => exact execInit_cases h
    | teardown =>
      simp [execOf, execTeardown, whenReady_ready hr, release, State.emit, State.setReady] at h
      subst h; exact .teardown hr

/-- What a step may do: nothing, a write of the host's, a reset, a command, or the answer to an illegal word. -/
theorem stepOf_cases (h : stepOf s = .next t) :
    (t = s ∧ (s.waiting ≠ none ∨ s.port = [])) ∨
    (s.waiting = none ∧ ∃ x rest, s.port = x :: rest ∧
      ((∃ i v, x = .hostWrite i v ∧ t = (s.accept rest).hostWrite i v) ∨
       (x = .reset ∧ t = (s.accept rest).hardwareReset) ∨
       (∃ c i, x = .command c ∧ decode c.word c.tcfg = .ok i ∧ ExecTo (s.accept rest) i t) ∨
       (∃ c e, x = .command c ∧ decode c.word c.tcfg = .error e ∧ t = (s.accept rest).respond .invalid))) := by
  cases hw : s.waiting with
  | some q => simp [stepOf, stepWith, nextInput, hw] at h; exact .inl ⟨h.symm, .inl (by simp)⟩
  | none =>
    cases hp : s.port with
    | nil => simp [stepOf, stepWith, nextInput, hw, hp] at h; exact .inl ⟨h.symm, .inr rfl⟩
    | cons x rest =>
      refine .inr ⟨rfl, x, rest, rfl, ?_⟩
      cases x with
      | hostWrite i v => simp [stepOf, stepWith, nextInput, hw, hp] at h; exact .inl ⟨i, v, rfl, h.symm⟩
      | reset => simp [stepOf, stepWith, nextInput, hw, hp] at h; exact .inr (.inl ⟨rfl, h.symm⟩)
      | command c =>
        cases hd : decode c.word c.tcfg with
        | ok i =>
          simp only [stepOf, stepWith, nextInput, hw, hp, hd] at h
          exact .inr (.inr (.inl ⟨c, i, rfl, hd, execOf_cases h⟩))
        | error e =>
          simp [stepOf, stepWith, nextInput, hw, hp, hd, illegalCommand] at h
          exact .inr (.inr (.inr ⟨c, e, rfl, hd, h.symm⟩))

end

/-! ### The same at the types of Config -/

section
variable {s t : State}

/-- Every state a command may lead to. -/
theorem exec_cases {i : Instr} (h : exec i s = .next t) : ExecTo s i t :=
  execOf_cases (exec_eq_execOf i s ▸ h)

/-- What a step may do. -/
theorem step_cases (h : step s = .next t) :
    (t = s ∧ (s.waiting ≠ none ∨ s.port = [])) ∨
    (s.waiting = none ∧ ∃ x rest, s.port = x :: rest ∧
      ((∃ i v, x = .hostWrite i v ∧ t = (s.accept rest).hostWrite i v) ∨
       (x = .reset ∧ t = (s.accept rest).hardwareReset) ∨
       (∃ c i, x = .command c ∧ decode c.word c.tcfg = .ok i ∧ ExecTo (s.accept rest) i t) ∨
       (∃ c e, x = .command c ∧ decode c.word c.tcfg = .error e ∧ t = (s.accept rest).respond .invalid))) :=
  stepOf_cases (step_eq_stepOf s ▸ h)

end

end Sys2Proof.Machine
end

