-- ==== Sys2Proof/Laws/PerInstr.lean ====
section
/-! SUPPORT. Per-instruction statements about the instruction as syntax: the word of an instruction has the opcode of its
own row of spec/opcode_table.json and zeros where the row marks "zero" (spec 30_encoding R70 to R76, R87). -/

namespace Sys2Proof.Laws

/-- The encoded word belongs to the instruction's own table row. -/
def Encoding.Statement (i : Instr) : Prop := i.row.matches (encodeWord i) = true

/-- A word built from fields matches a row when its toNat, taken modulo the fields' places, does. -/
theorem matches_of_bits {r : OpcodeRow} {w : CommandWord}
    (h : ∀ k : Fin 32, (w.getLsbD k && r.mask.getLsbD k) = r.value.getLsbD k) : r.matches w = true := by
  simp only [OpcodeRow.matches, beq_iff_eq]
  apply BitVec.eq_of_getLsbD_eq
  intro k hk
  simpa using h ⟨k, hk⟩

theorem Encoding.transact (cwe wc ws : Bool) (cfg : RegisterConfig) : Statement (.transact cwe wc ws cfg) := by
  refine matches_of_bits fun k => ?_
  fin_cases k <;> simp only [encodeWord, Instr.row, rowTransact, BitVec.getLsbD_append] <;> simp

theorem Encoding.writeConfig (cfg : RegisterConfig) : Statement (.writeConfig cfg) := by
  refine matches_of_bits fun k => ?_
  fin_cases k <;> simp only [encodeWord, Instr.row, rowWriteConfig, BitVec.getLsbD_append] <;> simp

theorem Encoding.readConfig : Statement .readConfig := rfl

theorem Encoding.bulkRead (dv : Bool) (count : BitVec 16) : Statement (.bulkRead dv count) := by
  refine matches_of_bits fun k => ?_
  fin_cases k <;> simp only [encodeWord, Instr.row, rowBulkRead, BitVec.getLsbD_append] <;> simp

theorem Encoding.init (vtag : BitVec 8) (cfg : RegisterConfig) (tcfg : Config.TCfg) :
    Statement (.init vtag cfg tcfg) := by
  refine matches_of_bits fun k => ?_
  fin_cases k <;> simp only [encodeWord, Instr.row, rowInit, BitVec.getLsbD_append] <;> simp

theorem Encoding.teardown : Statement .teardown := rfl

end Sys2Proof.Laws
end

