-- ==== Sys2Proof/Tests/Slice0.lean ====
section
/-! SUPPORT. The model's own tests. Expected values are those of the vectors V1 to V11 of spec 95_test_vectors, or words
written out bit by bit from the encodings of spec 30_encoding. The theorems test_witness_… show a state and operands that
meet the hypotheses of the obligation they name. -/

namespace Sys2Proof.Tests

open Sys2Proof.Machine Sys2Proof.Config

/-! ### Helpers -/

/-- A side operand, as `t0` of the spec's programs. -/
def t0 : TCfg := ⟨0⟩

/-- A transport error, as `e` of the spec's vectors. -/
def e7 : TErr := ⟨7⟩

/-- The answer `b0 b1` to an exchange of 2 bytes. -/
def two (b0 b1 : Byte) : XferAnswer := .ok b0 b1 0#8 0#8

/-- Four bytes, as an InFrame. -/
def fr (b0 b1 b2 b3 : Byte) : InFrame := ⟨b0, b1, b2, b3⟩

/-- State READY with this variant, these slots and these answers to come. -/
def readyState (v : BitVec 2) (p a : RegisterConfig) (answers : List XferAnswer) : State :=
  { State.reset with v := v, ready := true, p := p, a := a, xferAnswers := answers }

/-- State READY as after an INIT with ZERO: the transport held, and the trace that says so. -/
def heldState (answers : List XferAnswer) : State :=
  { State.reset with ready := true, xferAnswers := answers, log := [.acq t0 .ok] }

/-- Just after reset, with these answers to come. -/
def initState (acq : List AcqAnswer) (answers : List XferAnswer) : State :=
  { State.reset with acqAnswers := acq, xferAnswers := answers }

/-- `s` with a command as the next input. -/
def atPort (s : State) (w : CommandWord) : State := { s with port := [.command ⟨w, t0⟩] }

/-- The state an outcome goes on in, if it goes on. -/
def next? (o : Host.Outcome State Fault Refusal) : Option State :=
  match o with
  | .next t => some t
  | .fault _ => none
  | .refused _ => none

/-- Registers and log of a state. -/
structure Seen where
  ready : Bool
  v : BitVec 2
  p : RegisterConfig
  a : RegisterConfig
  log : List Event
deriving DecidableEq, Repr

/-- Registers and log of the state an outcome goes on in. -/
def seen (o : Host.Outcome State Fault Refusal) : Option Seen :=
  (next? o).map fun t => ⟨t.ready, t.v, t.p, t.a, t.log⟩

/-- The response of a command that returned only a status and perhaps an error. -/
def plain (st : Status) (e : Option TErr) : Event := .resp ⟨st, e, false, 0#16, false, 0#13⟩

/-! ### Well-formedness: each check refuses an ill-formed word (V11), and odd-looking legal words pass -/

theorem test_wf_reservedOpcode :
    [0x60000000#32, 0x7FFFFFFF#32, 0xF0000000#32, 0xFFFFFFFF#32].map legalWord = [false, false, false, false] := by
  decide
theorem test_wf_transact : [0x00002000#32, 0x01000000#32].map legalWord = [false, false] := by decide
theorem test_wf_writeConfig : [0x10002000#32, 0x18000000#32].map legalWord = [false, false] := by decide
theorem test_wf_readConfig : legalWord 0x20000001#32 = false := by decide
theorem test_wf_bulkRead : [0x38010000#32, 0x34000000#32].map legalWord = [false, false] := by decide
theorem test_wf_init : [0x40002000#32, 0x40080000#32].map legalWord = [false, false] := by decide
theorem test_wf_teardown : [0x50000001#32, 0x58000000#32].map legalWord = [false, false] := by decide
theorem test_wf_oddButLegal : [0x000019CD#32, 0x4FF01C40#32].map legalWord = [true, true] := by decide

/-! ### Decoding: one word of every format, written out from R72 to R76, and the rejections by name -/

/-- OP 0000, CWE 1, WC 0, WS 1, twelve zeros, CFG 1100111001101 (R72). -/
theorem test_decode_transact :
    decode 0b00001010000000000001100111001101#32 t0 = .ok (.transact true false true 0b1100111001101#13) := by decide
/-- OP 0000, CWE 0, WC 1, WS 0: the three flags are told apart (R72). -/
theorem test_decode_confirm :
    decode 0b00000100000000000000000000000000#32 t0 = .ok (.transact false true false 0#13) := by decide
/-- OP 0001, fifteen zeros, CFG 0101010110010 (R73). -/
theorem test_decode_writeConfig :
    decode 0b00010000000000000000101010110010#32 t0 = .ok (.writeConfig 0b0101010110010#13) := by decide
/-- OP 0010, zeros (R74). -/
theorem test_decode_readConfig : decode 0b00100000000000000000000000000000#32 t0 = .ok .readConfig := by decide
/-- OP 0011, DV 1, eleven zeros, COUNT 1000000000000101 (R75). -/
theorem test_decode_bulkRead :
    decode 0b00111000000000001000000000000101#32 t0 = .ok (.bulkRead true 0b1000000000000101#16) := by decide
/-- OP 0100, VTAG 10000010, seven zeros, CFG 1110001000000 (R76). -/
theorem test_decode_init :
    decode 0b01001000001000000001110001000000#32 t0 = .ok (.init 0b10000010#8 0b1110001000000#13 t0) := by decide
/-- OP 0101, zeros (R74). -/
theorem test_decode_teardown : decode 0b01010000000000000000000000000000#32 t0 = .ok .teardown := by decide
/-- OP 0110 is the first reserved opcode (R82). -/
theorem test_decode_reserved : decode 0x60000000#32 t0 = .error (.reservedOpcode 6#4) := by decide
/-- Bit 19 of an INIT must be zero (R76, R82). -/
theorem test_decode_nonZero : decode 0x40080000#32 t0 = .error (.nonZeroBits 4#4) := by decide
/-- The encoder writes the spec's own example words (R85). -/
theorem test_encode :
    [Instr.transact true false true 0x19CD#13, .writeConfig 0x19CD#13, .readConfig, .bulkRead true 5#16,
      .init 2#8 0x1C40#13 t0, .teardown].map encodeWord =
    [0x0A0019CD#32, 0x100019CD#32, 0x20000000#32, 0x38000005#32, 0x40201C40#32, 0x50000000#32] := by decide
/-- The host's two views of the decoder: a word of the table, and the next step that runs it. -/
theorem test_tableWord : decodeTableWord 32 0x100019CD = some (.writeConfig 0x19CD#13) := by decide
theorem test_withFetchWord : seen (step (State.reset.withFetchWord 32 0x50000000)) =
    some ⟨false, 0#2, 0#13, 0#13, [plain .invalidArgument none]⟩ := by decide

/-! ### The pure functions -/

/-- V1: six configurations and their words. -/
theorem test_packCfg :
    [0x0000#13, 0x0001#13, 0x1FFE#13, 0x1C40#13, 0x0AB2#13, 0x0559#13].map packCfg =
      [0x8004#16, 0x8000#16, 0xFFFC#16, 0xF104#16, 0xAACC#16, 0x9560#16] := by decide
/-- V1: an all-zero echo reads as readback enabled; bit 13 is ignored. -/
theorem test_unpackCfg : [0x0000#14, 0x3FFF#14, 0x19CC#14, 0x2AB3#14].map unpackCfg =
    [0x0001#13, 0x1FFE#13, 0x19CD#13, 0x0AB2#13] := by decide
/-- V3: the 14-bit variant, truncation toward zero at both signs and both ends. -/
theorem test_decodeSample14 :
    [Bytes.two 0x00#8 0x03#8, .two 0x12#8 0x34#8, .two 0x7F#8 0xFF#8, .two 0x80#8 0x00#8, .two 0x80#8 0x01#8,
      .two 0xAB#8 0xCD#8, .two 0xFF#8 0xF9#8, .two 0xFF#8 0xFF#8].map (decodeSample 2#2) =
    [0x0000#16, 0x048D#16, 0x1FFF#16, 0xE000#16, 0xE001#16, 0xEAF4#16, 0xFFFF#16, 0x0000#16] := by decide
/-- V3: the other variants pass the value through; bytes 2 and 3 do not enter. -/
theorem test_decodeSample16 :
    [0#2, 1#2, 3#2].map (fun v => decodeSample v (.four 0xAB#8 0xCD#8 0xFF#8 0xFF#8)) =
      [0xABCD#16, 0xABCD#16, 0xABCD#16] := by decide
/-- V4: the echo windows of the two kinds of variant, pad and trailing bits ignored. -/
theorem test_echoWord :
    [echoWord 3#2 (.four 0x12#8 0x34#8 0xE7#8 0x33#8), echoWord 2#2 (.four 0x04#8 0x8F#8 0x9C#8 0xCF#8),
      echoWord 2#2 (.four 0x80#8 0x00#8 0x1C#8 0xC0#8)] = [0x39CC#14, 0x39CC#14, 0x01CC#14] := by decide
/-- V5: the old A is lost. -/
theorem test_advance : advanceSlots 0x19CD#13 0x1C40#13 true 0x0AB2#13 = (0x0AB2#13, 0x19CD#13) := by decide
/-- A DST write keeps the indices rising and replaces what stood there. -/
theorem test_dstWrite : dstWrite (dstWrite (dstWrite [] 5 1#16) 2 2#16) 5 3#16 = [(2, 2#16), (5, 3#16)] := by decide

/-! ### The commands, one step each -/

/-- V6: V = 2, P = A = 0x19CD, `TRANSACT confirm sample`: sample and echo share bits. -/
theorem test_transact_confirmSample :
    seen (step (atPort (readyState 2#2 0x19CD#13 0x19CD#13 [.ok 0xAB#8 0xCF#8 0x9C#8 0xC0#8]) 0x06000000#32)) =
      some ⟨true, 2#2, 0x19CD#13, 0x19CD#13,
        [.xfer (.four 0#8 0#8 0#8 0#8) (.ok (.four 0xAB#8 0xCF#8 0x9C#8 0xC0#8)),
         .resp ⟨.ok, none, true, 0xEAF4#16, true, 0x19CD#13⟩]⟩ := by decide
/-- V6: `TRANSACT cfg=0x0AB2 confirm sample` where readback is not active: 2 bytes, CV = 0, the old P into A. -/
theorem test_transact_noReadback :
    seen (step (atPort (readyState 0#2 0x19CD#13 0x1C40#13 [two 0xAB#8 0xCD#8]) 0x0E000AB2#32)) =
      some ⟨true, 0#2, 0x0AB2#13, 0x19CD#13,
        [.xfer (.two 0xAA#8 0xCC#8) (.ok (.two 0xAB#8 0xCD#8)),
         .resp ⟨.ok, none, true, 0xABCD#16, false, 0#13⟩]⟩ := by decide
/-- V7: the second of two writes in a row. -/
theorem test_writeConfig :
    seen (step (atPort (readyState 0#2 0x19CD#13 0x1C40#13 [two 0x12#8 0x34#8]) 0x10000AB2#32)) =
      some ⟨true, 0#2, 0x0AB2#13, 0x19CD#13,
        [.xfer (.two 0xAA#8 0xCC#8) (.ok (.two 0x12#8 0x34#8)), plain .ok none]⟩ := by decide
/-- V7: a failed write leaves the shadow. -/
theorem test_writeConfig_fails :
    seen (step (atPort (readyState 0#2 0x1C40#13 0x1C40#13 [.err e7]) 0x100019CD#32)) =
      some ⟨true, 0#2, 0x1C40#13, 0x1C40#13,
        [.xfer (.two 0xE7#8 0x30#8) (.err e7), plain .transportFailure (some e7)]⟩ := by decide
/-- V8: the short path with a pending write that turns readback off. -/
theorem test_readConfig_short :
    seen (step (atPort (readyState 0#2 0x1C40#13 0x19CD#13 [.ok 0#8 0#8 0xE7#8 0x30#8]) 0x20000000#32)) =
      some ⟨true, 0#2, 0x1C40#13, 0x1C40#13,
        [.xfer (.four 0#8 0#8 0#8 0#8) (.ok (.four 0#8 0#8 0xE7#8 0x30#8)),
         .resp ⟨.ok, none, false, 0#16, true, 0x19CD#13⟩]⟩ := by decide
/-- V8: the long path stopped at step (c): the pending 0x0AB2 is lost. -/
theorem test_readConfig_long :
    seen (step (atPort (readyState 0#2 0x0AB2#13 0x1C40#13 [two 0x00#8 0x01#8, two 0x00#8 0x02#8, .err e7])
        0x20000000#32)) =
      some ⟨true, 0#2, 0x1C40#13, 0x1C41#13,
        [.xfer (.two 0xF1#8 0x00#8) (.ok (.two 0x00#8 0x01#8)), .xfer (.two 0xF1#8 0x04#8) (.ok (.two 0x00#8 0x02#8)),
         .xfer (.four 0#8 0#8 0#8 0#8) (.err e7), plain .transportFailure (some e7)]⟩ := by decide
/-- V9: V = 2, `BULK_READ dst, 5` whose third transfer fails: two words of DST. -/
theorem test_bulkRead_fails :
    (next? (step (atPort (readyState 2#2 0x19CD#13 0x19CD#13 [two 0xFF#8 0xFB#8, two 0x00#8 0x05#8, .err e7])
      0x38000005#32))).map (fun t => (t.dst, t.responses)) =
      some ([(0, 0xFFFF#16), (1, 0x0001#16)], [⟨.transportFailure, some e7, false, 0#16, false, 0#13⟩]) := by decide
/-- V9: `BULK_READ dst, 3`: the pending configuration becomes active. -/
theorem test_bulkRead :
    (next? (step (atPort (readyState 0#2 0x19CD#13 0x1C40#13 [two 0x7F#8 0xFF#8, two 0x80#8 0x00#8, two 0xFF#8 0xFB#8])
      0x38000003#32))).map (fun t => (t.dst, t.p, t.a)) =
      some ([(0, 0x7FFF#16), (1, 0x8000#16), (2, 0xFFFB#16)], 0x19CD#13, 0x19CD#13) := by decide
/-- V10: INIT of the 14-bit variant from reset. -/
theorem test_init :
    seen (step (atPort (initState [.ok] [two 0x11#8 0x11#8, two 0x22#8 0x22#8]) 0x40201C40#32)) =
      some ⟨true, 2#2, 0x1C40#13, 0x1C40#13,
        [.acq t0 .ok, .xfer (.two 0xF1#8 0x04#8) (.ok (.two 0x11#8 0x11#8)),
         .xfer (.two 0#8 0#8) (.ok (.two 0x22#8 0x22#8)), plain .ok none]⟩ := by decide
/-- V10: INIT whose second transfer fails releases the transport. -/
theorem test_init_fails :
    seen (step (atPort (initState [.ok] [two 0x00#8 0x00#8, .err e7]) 0x40101C40#32)) =
      some ⟨false, 1#2, 0x1C40#13, 0x0000#13,
        [.acq t0 .ok, .xfer (.two 0xF1#8 0x04#8) (.ok (.two 0#8 0#8)), .xfer (.two 0#8 0#8) (.err e7), .rel,
         plain .transportFailure (some e7)]⟩ := by decide
/-- V10: TEARDOWN in state READY. -/
theorem test_teardown :
    seen (step (atPort (readyState 2#2 0x19CD#13 0x19CD#13 []) 0x50000000#32)) =
      some ⟨false, 2#2, 0x19CD#13, 0x19CD#13, [.rel, plain .ok none]⟩ := by decide
/-- V10: TEARDOWN without a handle. -/
theorem test_teardown_none :
    seen (step (atPort State.reset 0x50000000#32)) = some ⟨false, 0#2, 0#13, 0#13, [plain .invalidArgument none]⟩ := by
  decide

/-! ### Witnesses: the hypotheses of each obligation can be met -/

theorem test_witness_SampleDecoder : (0#2 : BitVec 2) ≠ 2#2 := by decide

/-- A negative raw value with `x[1:0]` not 0, and a positive one. -/
theorem test_witness_SampleScaling :
    (raw16 (.two 0xFF#8 0xFB#8)).toInt < 0 ∧ (raw16 (.two 0xFF#8 0xFB#8)).extractLsb' 0 2 ≠ 0#2 ∧
      0 ≤ (raw16 (.two 0x12#8 0x34#8)).toInt := by decide

theorem test_witness_EchoWindowArithmetic : (3#2 : BitVec 2) ≠ 2#2 := by decide

theorem test_witness_PackUnpackRoundTrip :
    (0#2 : BitVec 2) ≠ 2#2 ∧ (0xE7#8 ++ 0x30#8 : Word16) = packCfg 0x19CD#13 ∧
      (frame (.four 0x04#8 0x8F#8 0x9C#8 0xC0#8)).extractLsb' 4 14 = (packCfg 0x19CD#13).extractLsb' 2 14 := by decide

theorem test_witness_SharedBits :
    ((raw16 (.two 0xFF#8 0xFF#8)).extractLsb' 2 14 = 0x3FFF#14 ∧
      (raw16 (.two 0xFF#8 0xFF#8)).extractLsb' 0 2 = 3#2) ∧
    ((raw16 (.two 0x80#8 0x03#8)).extractLsb' 2 14 = 0x2000#14 ∧
      (raw16 (.two 0x80#8 0x03#8)).extractLsb' 0 2 = 3#2) := by decide

theorem test_witness_EncodeDecode : decode 0x4FF01C40#32 t0 = .ok (.init 0xFF#8 0x1C40#13 t0) := by decide

theorem test_witness_IllegalWord :
    (atPort State.reset 0x00002000#32).waiting = none ∧
      (atPort State.reset 0x00002000#32).port = [.command ⟨0x00002000#32, t0⟩] ∧
      decode 0x00002000#32 t0 = .error (.nonZeroBits 0#4) := by decide

theorem test_witness_StepRunsTheDecodedInstruction :
    (atPort State.reset 0x20000000#32).waiting = none ∧
      (atPort State.reset 0x20000000#32).port = [.command ⟨0x20000000#32, t0⟩] ∧
      decode 0x20000000#32 t0 = .ok .readConfig := by decide

theorem test_witness_HardwareReset :
    ({ heldState [] with port := [.reset] } : State).waiting = none ∧
      ({ heldState [] with port := [.reset] } : State).port = [.reset] := by decide

theorem test_witness_HostWrites :
    ({ State.reset with port := [.hostWrite 65535#16 0xDEAD#16] } : State).waiting = none ∧
      ({ State.reset with port := [.hostWrite 65535#16 0xDEAD#16] } : State).port =
        [.hostWrite 65535#16 0xDEAD#16] := by decide

/-- A command that waits, and a state that waits. -/
theorem test_witness_Unanswered :
    (readyState 0#2 0#13 0#13 [.never]).waiting = none ∧
      (next? (exec pseudoConv (readyState 0#2 0#13 0#13 [.never]))).map State.waiting =
        some (some (.xfer zeroBytes)) := by decide

/-- One state for each clause: UNINIT; READY with an exchange of 4 bytes, and of 2 bytes, that succeeds; one that fails. -/
theorem test_witness_TransactCommand :
    State.reset.ready = false ∧
    ((readyState 0#2 0x19CD#13 0x19CD#13 [.ok 1#8 2#8 3#8 4#8]).ready = true ∧
      nextAnswers [outBytes false 0#13 .four] (readyState 0#2 0x19CD#13 0x19CD#13 [.ok 1#8 2#8 3#8 4#8]) =
        [(fr 1#8 2#8 3#8 4#8).answer]) ∧
    ((readyState 0#2 0#13 0#13 [two 1#8 2#8]).ready = true ∧
      nextAnswers [outBytes true 0x1FFF#13 .two] (readyState 0#2 0#13 0#13 [two 1#8 2#8]) =
        [(fr 1#8 2#8 0#8 0#8).answer]) ∧
    ((readyState 0#2 0#13 0#13 [.err e7]).ready = true ∧
      nextAnswers [outBytes true 0x1FFF#13 .two] (readyState 0#2 0#13 0#13 [.err e7]) = [.err e7]) := by decide

theorem test_witness_WriteConfigCommand :
    State.reset.ready = false ∧
    ((readyState 0#2 0#13 0#13 [two 1#8 2#8]).ready = true ∧
      nextAnswers [outBytes true 0x1FFF#13 .two] (readyState 0#2 0#13 0#13 [two 1#8 2#8]) =
        [(fr 1#8 2#8 0#8 0#8).answer]) ∧
    ((readyState 0#2 0#13 0#13 [.err e7]).ready = true ∧
      nextAnswers [outBytes true 0x1FFF#13 .two] (readyState 0#2 0#13 0#13 [.err e7]) = [.err e7]) := by decide

/-- The short path: success and failure. -/
theorem test_witness_ReadConfigCommand_short :
    State.reset.ready = false ∧
    ((readyState 0#2 0x19CD#13 0x19CD#13 [.ok 1#8 2#8 3#8 4#8]).ready = true ∧
      rb (readyState 0#2 0x19CD#13 0x19CD#13 [.ok 1#8 2#8 3#8 4#8]).a = true ∧
      nextAnswers [.four 0#8 0#8 0#8 0#8] (readyState 0#2 0x19CD#13 0x19CD#13 [.ok 1#8 2#8 3#8 4#8]) =
        [(fr 1#8 2#8 3#8 4#8).answer]) ∧
    ((readyState 0#2 0x19CD#13 0x19CD#13 [.err e7]).ready = true ∧
      rb (readyState 0#2 0x19CD#13 0x19CD#13 [.err e7]).a = true ∧
      nextAnswers [.four 0#8 0#8 0#8 0#8] (readyState 0#2 0x19CD#13 0x19CD#13 [.err e7]) = [.err e7]) := by decide

/-- The long path: success, and a failure of its first, second and third exchange. -/
theorem test_witness_ReadConfigCommand_long :
    let c := 0x1C40#13
    let o1 := outBytes true (withRb c true) .two
    let o2 := outBytes true c .two
    let o3 : Bytes := .four 0#8 0#8 0#8 0#8
    rb c = false ∧
    ((readyState 0#2 c c [two 1#8 2#8, two 3#8 4#8, .ok 5#8 6#8 7#8 8#8]).ready = true ∧
      nextAnswers [o1, o2, o3] (readyState 0#2 c c [two 1#8 2#8, two 3#8 4#8, .ok 5#8 6#8 7#8 8#8]) =
        [(fr 1#8 2#8 0#8 0#8).answer, (fr 3#8 4#8 0#8 0#8).answer, (fr 5#8 6#8 7#8 8#8).answer]) ∧
    nextAnswers [o1] (readyState 0#2 c c [.err e7]) = [.err e7] ∧
    nextAnswers [o1, o2] (readyState 0#2 c c [two 1#8 2#8, .err e7]) = [(fr 1#8 2#8 0#8 0#8).answer, .err e7] ∧
    nextAnswers [o1, o2, o3] (readyState 0#2 c c [two 1#8 2#8, two 3#8 4#8, .err e7]) =
      [(fr 1#8 2#8 0#8 0#8).answer, (fr 3#8 4#8 0#8 0#8).answer, .err e7] := by decide

theorem test_witness_ConfigCommandsUnanswered :
    let c := 0x1C40#13
    let o1 := outBytes true (withRb c true) .two
    let o2 := outBytes true c .two
    let o3 : Bytes := .four 0#8 0#8 0#8 0#8
    (readyState 0#2 c c [.never]).ready = true ∧ rb c = false ∧ rb 0x19CD#13 = true ∧
    nextAnswers [o2] (readyState 0#2 c c [.never]) = [.never] ∧
    nextAnswers [o3] (readyState 0#2 0x19CD#13 0x19CD#13 [.never]) = [.never] ∧
    nextAnswers [o1] (readyState 0#2 c c [.never]) = [.never] ∧
    nextAnswers [o1, o2] (readyState 0#2 c c [two 1#8 2#8, .never]) = [(fr 1#8 2#8 0#8 0#8).answer, .never] ∧
    nextAnswers [o1, o2, o3] (readyState 0#2 c c [two 1#8 2#8, two 3#8 4#8, .never]) =
      [(fr 1#8 2#8 0#8 0#8).answer, (fr 3#8 4#8 0#8 0#8).answer, .never] := by decide

/-- UNINIT; COUNT = 0; COUNT = 2 that succeeds; a failure at index 0 and at the last index. -/
theorem test_witness_BulkReadCommand :
    State.reset.ready = false ∧
    ((readyState 0#2 0#13 0#13 []).ready = true ∧ ([] : List InFrame).length = (0#16 : BitVec 16).toNat ∧
      nextAnswers (List.replicate 0 zeroBytes) (readyState 0#2 0#13 0#13 []) = ([] : List InFrame).map InFrame.answer) ∧
    ((readyState 0#2 0#13 0#13 [two 1#8 2#8, two 3#8 4#8]).ready = true ∧
      [fr 1#8 2#8 0#8 0#8, fr 3#8 4#8 0#8 0#8].length = (2#16 : BitVec 16).toNat ∧
      nextAnswers (List.replicate (2#16 : BitVec 16).toNat zeroBytes)
          (readyState 0#2 0#13 0#13 [two 1#8 2#8, two 3#8 4#8]) =
        [fr 1#8 2#8 0#8 0#8, fr 3#8 4#8 0#8 0#8].map InFrame.answer) ∧
    (([] : List InFrame).length < (2#16 : BitVec 16).toNat ∧
      nextAnswers (List.replicate (0 + 1) zeroBytes) (readyState 0#2 0#13 0#13 [.err e7]) =
        ([] : List InFrame).map InFrame.answer ++ [.err e7]) ∧
    ([fr 1#8 2#8 0#8 0#8].length < (2#16 : BitVec 16).toNat ∧
      nextAnswers (List.replicate (1 + 1) zeroBytes) (readyState 0#2 0#13 0#13 [two 1#8 2#8, .err e7]) =
        [fr 1#8 2#8 0#8 0#8].map InFrame.answer ++ [.err e7]) := by decide

theorem test_witness_BulkReadUnanswered :
    (readyState 0#2 0#13 0#13 [two 1#8 2#8, .never]).ready = true ∧
    [fr 1#8 2#8 0#8 0#8].length < (2#16 : BitVec 16).toNat ∧
    nextAnswers (List.replicate (1 + 1) zeroBytes) (readyState 0#2 0#13 0#13 [two 1#8 2#8, .never]) =
      [fr 1#8 2#8 0#8 0#8].map InFrame.answer ++ [.never] := by decide

/-- Tags 4 and 3 on the two sides of the check; a handle in use; success; the three failures. -/
theorem test_witness_InitCommand :
    let out := outBytes true 0x1C40#13 .two
    3 < (4#8 : BitVec 8).toNat ∧ ((3#8 : BitVec 8).toNat ≤ 3 ∧ (heldState []).ready = true) ∧
    (∀ acq ans, (initState acq ans).ready = false) ∧
    ((acqAnswer t0 (initState [.ok] [two 1#8 2#8, two 3#8 4#8])).1 = .ok ∧
      nextAnswers [out, zeroBytes] (acqAnswer t0 (initState [.ok] [two 1#8 2#8, two 3#8 4#8])).2 =
        [(fr 1#8 2#8 0#8 0#8).answer, (fr 3#8 4#8 0#8 0#8).answer]) ∧
    (acqAnswer t0 (initState [.err e7] [])).1 = .err e7 ∧
    ((acqAnswer t0 (initState [.ok] [.err e7])).1 = .ok ∧
      nextAnswers [out] (acqAnswer t0 (initState [.ok] [.err e7])).2 = [.err e7]) ∧
    ((acqAnswer t0 (initState [.ok] [two 1#8 2#8, .err e7])).1 = .ok ∧
      nextAnswers [out, zeroBytes] (acqAnswer t0 (initState [.ok] [two 1#8 2#8, .err e7])).2 =
        [(fr 1#8 2#8 0#8 0#8).answer, .err e7]) := by
  refine ⟨by decide, by decide, fun _ _ => rfl, by decide, by decide, by decide, by decide⟩

theorem test_witness_InitUnanswered :
    let out := outBytes true 0x1C40#13 .two
    State.reset.ready = false ∧ (3#8 : BitVec 8).toNat ≤ 3 ∧
    (acqAnswer t0 (initState [.never] [])).1 = .never ∧
    ((acqAnswer t0 (initState [.ok] [.never])).1 = .ok ∧
      nextAnswers [out] (acqAnswer t0 (initState [.ok] [.never])).2 = [.never]) ∧
    nextAnswers [out, zeroBytes] (acqAnswer t0 (initState [.ok] [two 1#8 2#8, .never])).2 =
      [(fr 1#8 2#8 0#8 0#8).answer, .never] := by decide

theorem test_witness_TeardownReleases : (heldState []).ready = true ∧ State.reset.ready = false := by decide

/-- A write of 0x0001 (readback on) that returns OK, one more transfer that returns OK, and then four bytes to read. -/
theorem test_witness_WriteLatency :
    let s := readyState 0#2 0#13 0#13 [two 1#8 2#8, two 3#8 4#8, .ok 5#8 6#8 7#8 8#8]
    s.ready = true ∧ rb 0x0001#13 = true ∧ rb s.p = false ∧
    ∃ t u, exec (.writeConfig 0x0001#13) s = .next t ∧ exec pseudoConv t = .next u ∧
      t.log = s.log ++ [.xfer (.two 0x80#8 0x00#8) (.ok (.two 1#8 2#8))] ++ [plain .ok none] ∧
      u.log = t.log ++ [.xfer zeroBytes (.ok (.two 3#8 4#8))] ++ [plain .ok none] ∧
      nextAnswers [outBytes false 0#13 .four] u = [(fr 5#8 6#8 7#8 8#8).answer] :=
  ⟨rfl, rfl, rfl, _, _, rfl, rfl, rfl, rfl, rfl⟩

/-- A step that answers INVALID_ARGUMENT. -/
theorem test_witness_InvalidArgument :
    let s := atPort State.reset 0x20000000#32
    s.waiting = none ∧ s.port = .command ⟨0x20000000#32, t0⟩ :: [] ∧
    ∃ t, step s = .next t ∧ t.log = s.log ++ [] ++ [plain .invalidArgument none] := ⟨rfl, rfl, _, rfl, rfl⟩

/-- A command that returns, with an error of the transport: OneResponsePerCommand, WhichCommandsReturnResults,
TransportErrorIsPassedOnVerbatim, CostsInTransfers. -/
theorem test_witness_ReturningCommand :
    let s := readyState 0#2 0#13 0#13 [.err e7]
    s.waiting = none ∧ ∃ t, exec pseudoSample s = .next t ∧
      t.log = s.log ++ [.xfer zeroBytes (.err e7)] ++ [plain .transportFailure (some e7)] := ⟨rfl, _, rfl, rfl⟩

/-- The same with status OK, a sample and an echo. -/
theorem test_witness_ReturningCommand_ok :
    let s := readyState 0#2 0x19CD#13 0x19CD#13 [.ok 0xAB#8 0xCC#8 0xE7#8 0x30#8]
    s.waiting = none ∧ ∃ t, exec (.transact false true true 0#13) s = .next t ∧
      t.log = s.log ++ [.xfer (.four 0#8 0#8 0#8 0#8) (.ok (.four 0xAB#8 0xCC#8 0xE7#8 0x30#8))] ++
        [.resp ⟨.ok, none, true, 0xABCC#16, true, 0x19CD#13⟩] := ⟨rfl, _, rfl, rfl⟩

/-- An INIT one of whose transfers fails: the release in CostsInTransfers. -/
theorem test_witness_CostsInTransfers_init :
    let s := initState [.ok] [.err e7]
    s.waiting = none ∧ ∃ t, exec (.init 0#8 0x1C40#13 t0) s = .next t ∧
      t.log = s.log ++ [.acq t0 .ok, .xfer (.two 0xF1#8 0x04#8) (.err e7), .rel] ++
        [plain .transportFailure (some e7)] := ⟨rfl, _, rfl, rfl⟩

theorem test_witness_AllocationFailure :
    let s := heldState []
    s.waiting = none ∧ s.ready = true ∧ (0#8 : BitVec 8).toNat ≤ 3 ∧ ∃ t, exec (.init 0#8 0#13 t0) s = .next t ∧
      t.log = s.log ++ [] ++ [plain .allocationFailure none] := ⟨rfl, rfl, by decide, _, rfl, rfl⟩

/-- An INIT that changes V and sets READY: VariantIsWrittenByInitAlone, ReadyChangesOnlyByInitAndTeardown. -/
theorem test_witness_VariantAndReady :
    let s := initState [.ok] [two 1#8 2#8, two 3#8 4#8]
    s.ready = false ∧ ∃ t, exec (.init 2#8 0x1C40#13 t0) s = .next t ∧ t.v ≠ s.v ∧ t.ready = true :=
  ⟨rfl, _, rfl, by decide, rfl⟩

/-- A TEARDOWN that clears READY. -/
theorem test_witness_ReadyChanges_teardown :
    (heldState []).ready = true ∧ ∃ t, exec .teardown (heldState []) = .next t ∧ t.ready = false := ⟨rfl, _, rfl, rfl⟩

/-- A command that changes P, and one that changes DST: ShadowChangesOnlyByExchanges, OnlyBulkReadWritesDst. -/
theorem test_witness_ShadowAndDst :
    (∃ t, exec (.writeConfig 0x19CD#13) (readyState 0#2 0#13 0#13 [two 1#8 2#8]) = .next t ∧ t.p ≠ 0#13) ∧
    (∃ t, exec (.bulkRead true 1#16) (readyState 0#2 0#13 0#13 [two 1#8 2#8]) = .next t ∧
      dstRead t.dst 0 ≠ none) := ⟨⟨_, rfl, by decide⟩, ⟨_, rfl, by decide⟩⟩

/-- Commands of each shape that answer a next state: FrameOfConfigCommands, FrameOfBulkRead, FrameOfInit. -/
theorem test_witness_Frames :
    (∃ t, exec .readConfig (readyState 0#2 0x19CD#13 0x19CD#13 [.ok 1#8 2#8 3#8 4#8]) = .next t) ∧
    (∃ t, exec (.bulkRead true 2#16) (readyState 0#2 0#13 0#13 [two 1#8 2#8, two 3#8 4#8]) = .next t) ∧
    (∃ t, exec (.init 4#8 0#13 t0) State.reset = .next t) ∧ 3 < (4#8 : BitVec 8).toNat :=
  ⟨⟨_, rfl⟩, ⟨_, rfl⟩, ⟨_, rfl⟩, by decide⟩

/-- A state that meets all five invariants, READY and with the transport held, and steps: the four StepKeeps… statements. -/
theorem test_witness_Invariants :
    let s := atPort (heldState [two 1#8 2#8]) 0x100019CD#32
    LinkInv s ∧ ShadowInv s ∧ EventInv s ∧ IdleInv s ∧ DstInv s ∧
      ∃ t, step s = .next t ∧ t.p = 0x19CD#13 := ⟨rfl, rfl, rfl, fun _ => rfl, rfl, _, rfl, rfl⟩

/-- A state that waits on an Acquire meets the link and shadow invariants too. -/
theorem test_witness_Invariants_waiting :
    let s : State := { State.reset with waiting := some (.acquire t0) }
    LinkInv s ∧ ShadowInv s ∧ IdleInv s ∧ ∃ t, step s = .next t := ⟨rfl, ⟨rfl, rfl⟩, nofun, _, rfl⟩

/-- The log of an engine whose first INIT failed in its first exchange and whose second one acquired the transport. -/
def linkLog : List Event := [.acq t0 .ok, .xfer zeroBytes (.err e7), .rel, .acq t0 .ok]

/-- A state with that log that meets the link invariant and steps, and, for each clause, an event of the log: an
exchange, a release, and an Acquire after a successful one. -/
theorem test_witness_LinkProtocol :
    let s : State := { heldState [] with log := linkLog }
    LinkInv s ∧ (∃ t, step s = .next t) ∧
    s.log = [.acq t0 .ok] ++ .xfer zeroBytes (.err e7) :: [.rel, .acq t0 .ok] ∧
    s.log = [.acq t0 .ok, .xfer zeroBytes (.err e7)] ++ .rel :: [.acq t0 .ok] ∧
    (s.log = [.acq t0 .ok, .xfer zeroBytes (.err e7), .rel] ++ .acq t0 .ok :: [] ∧
      [.acq t0 .ok, .xfer zeroBytes (.err e7), .rel] =
        ([] : List Event) ++ .acq t0 .ok :: [.xfer zeroBytes (.err e7), .rel]) :=
  ⟨rfl, ⟨_, rfl⟩, rfl, rfl, rfl, rfl⟩

/-- An INIT that returns OK, and a TRANSACT after it that returns OK. -/
theorem test_witness_FirstSample :
    let s := initState [.ok] [two 1#8 2#8, two 3#8 4#8, two 5#8 6#8]
    s.ready = false ∧ ∃ t, exec (.init 0#8 0x1C40#13 t0) s = .next t ∧ t.ready = true ∧
      ∃ u, exec (.transact false false true 0#13) t = .next u ∧
        u.log = t.log ++ [.xfer zeroBytes (.ok (.two 5#8 6#8))] ++ [.resp ⟨.ok, none, true, 0x0506#16, false, 0#13⟩] :=
  ⟨rfl, _, rfl, rfl, _, rfl, rfl⟩

/-- A machine over other types, with answers enough for the longest BULK_READ. -/
theorem test_witness_OpaqueTypesAreNotInspected :
    let s : State Bool Unit :=
      { State.resetOf Bool Unit with acqAnswers := [.ok], xferAnswers := List.replicate 65535 (.err ()) }
    s.acqAnswers ≠ [] ∧ 65535 ≤ s.xferAnswers.length :=
  ⟨List.cons_ne_nil _ _, (List.length_replicate).ge⟩

/-- A BULK_READ, and a command in UNINIT, that answer a next state: EngineNeverReadsDst, UninitRegistersAreUnobservable. -/
theorem test_witness_Unobservable :
    (∃ t, exec (.bulkRead true 1#16) (readyState 0#2 0#13 0#13 [two 1#8 2#8]) = .next t) ∧
    State.reset.ready = false ∧ ∃ t, exec pseudoSample State.reset = .next t := ⟨⟨_, rfl⟩, rfl, _, rfl⟩

end Sys2Proof.Tests
end

/-! ## The transport that never answers (spec 20_memory R58)

A command ends in one of two ways: with its one response, or with the engine waiting on a request that has no answer.
An engine that waits takes no further step. -/

namespace Sys2Proof.Machine

section
variable {TCfg TErr : Type}

/-! ### How a command ends -/

/-- The command that led from `s` to `t` has logged `evs`, delivered one response after them, and left the sequencer idle
and the wait as it was (R54). -/
def RespondsAfter (s t : State TCfg TErr) (evs : List (Event TCfg TErr)) : Prop :=
  ∃ r, t.log = s.log ++ evs ++ [.resp r] ∧ t.seqStep = 0 ∧ t.waiting = s.waiting

/-- The command that led from `s` to `t` has logged `evs` and now waits on a request (R58). -/
def WaitsAfter (s t : State TCfg TErr) (evs : List (Event TCfg TErr)) : Prop :=
  ∃ q, t.log = s.log ++ evs ∧ t.waiting = some q

/-- A command that led from `s` to `t` has ended in one of the two ways, with no response among its other events. -/
def CommandEnds (s t : State TCfg TErr) : Prop :=
  ∃ evs : List (Event TCfg TErr), (∀ e ∈ evs, e.response? = none) ∧ (RespondsAfter s t evs ∨ WaitsAfter s t evs)

variable {s t u : State TCfg TErr} {evs : List (Event TCfg TErr)}

/-- A command whose last part is done in `u` ends by responding. -/
theorem CommandEnds.of_respond (r : Response TErr) (hlog : u.log = s.log ++ evs) (hw : u.waiting = s.waiting)
    (hevs : ∀ e ∈ evs, e.response? = none) : CommandEnds s (u.respond r) :=
  ⟨evs, hevs, .inl ⟨r, by rw [State.respond_log, hlog], rfl, hw⟩⟩

/-- A command that answers at once, before any other event, ends by responding. -/
theorem CommandEnds.respond_self (s : State TCfg TErr) (r : Response TErr) : CommandEnds s (s.respond r) :=
  .of_respond r (List.append_nil _).symm rfl (by simp)

/-- A command that waits ends by waiting. -/
theorem CommandEnds.of_waiting {q : Request TCfg} (hw : t.waiting = some q) (hlog : t.log = s.log ++ evs)
    (hevs : ∀ e ∈ evs, e.response? = none) : CommandEnds s t :=
  ⟨evs, hevs, .inr ⟨q, hlog, hw⟩⟩

/-- A command that waits on its first request has logged nothing. -/
theorem CommandEnds.of_waiting_first {q : Request TCfg} (hw : t.waiting = some q) (hlog : t.log = s.log) :
    CommandEnds s t :=
  .of_waiting (evs := []) hw (by simp [hlog]) (by simp)

/-- Every command ends in one of the two ways, whatever the transport answers. -/
theorem ExecTo.commandEnds {i : Instr TCfg} (h : ExecTo s i t) : CommandEnds s t := by
  cases h with
  -- refused before any exchange
  | uninit | bulkNull | initTag | initInUse => exact .respond_self _ _
  -- answered after the exchanges it made
  | transactOk | transactErr | writeOk | writeErr | shortOk | shortErr | longAErr | longBErr | longCErr | longOk
  | initAcqErr | initWriteErr | initConvErr | initOk | teardown => exact .of_respond _ rfl rfl (by simp)
  | bulkOk => exact .of_respond _ rfl rfl (bulkEvents_response? _ _ _)
  | bulkErr count frames q d e =>
    refine .of_respond (evs := bulkEvents s.v 0 frames ++ [.xfer zeroBytes (.err e)]) _ ?_ rfl ?_
    · exact List.append_assoc _ _ _
    · intro ev hev
      rcases List.mem_append.mp hev with hev | hev
      · exact bulkEvents_response? _ _ _ ev hev
      · rw [List.mem_singleton.mp hev, response?_xfer]
  -- waiting on the first request
  | transactHung | writeHung | shortHung | longAHung | initAcqHung => exact .of_waiting_first rfl rfl
  -- waiting on a later one
  | longBHung | longCHung | initWriteHung | initConvHung => exact .of_waiting rfl rfl (by simp)
  | bulkHung => exact .of_waiting rfl rfl (bulkEvents_response? _ _ _)

/-- Events that are no response add no response. -/
theorem responses_eq_of_log_append (hlog : t.log = s.log ++ evs) (hevs : ∀ e ∈ evs, e.response? = none) :
    t.responses = s.responses := by
  have hnil : evs.filterMap Event.response? = [] := List.filterMap_eq_nil_iff.mpr hevs
  simp [State.responses, hlog, hnil]

/-- A command that came to an idle engine and left it waiting has delivered no response. -/
theorem CommandEnds.responses_eq (h : CommandEnds s t) (hs : s.waiting = none) (ht : t.waiting ≠ none) :
    t.responses = s.responses := by
  obtain ⟨evs, hevs, ⟨r, -, -, hw⟩ | ⟨q, hlog, -⟩⟩ := h
  · exact absurd (hw.trans hs) ht
  · exact responses_eq_of_log_append hlog hevs

/-! ### A waiting engine -/

/-- While the engine waits it takes nothing from its port. -/
theorem nextInput_of_waiting (h : s.waiting ≠ none) : nextInput s = none := by
  obtain ⟨q, hq⟩ := Option.ne_none_iff_exists'.mp h
  simp [nextInput, hq]

end

/-- A waiting engine goes on waiting. -/
theorem step_of_waiting {s : State} (h : s.waiting ≠ none) : step s = .next s := by
  simp only [step, stepWith, nextInput_of_waiting h]

/-- A machine that steps to where it is stays there for any number of steps. -/
theorem run_of_step_eq_self {M : Host.Core} {s : M.State} (h : M.step s = .next s) (k : Nat) : M.run k s = .next s := by
  induction k with
  | zero => rfl
  | succ k ih => simp only [Host.Core.run, h, ih]

/-- Settles O18: a command that waits is in the second case of `CommandEnds`, and a waiting state is a fixed point of
`step`. -/
theorem unansweredCommandNeverReturns : Obligations.UnansweredCommandNeverReturns := by
  unfold Obligations.UnansweredCommandNeverReturns
  constructor
  · intro i s t hs h ht
    exact (exec_cases h).commandEnds.responses_eq hs ht
  · intro s k hs
    exact run_of_step_eq_self (M := Sys2Proof.core) (step_of_waiting hs) k

end Sys2Proof.Machine

/-! ## The command word and what a command may return (spec 30_encoding R72 to R87)

A format is an opcode and a run of bits that must be zero. The opcode table gives each as one mask and one value, the
decoder as two checks; here the two are compared once for every format. -/

namespace Sys2Proof

section
variable {TCfg : Type}

/-! ### Masks -/

/-- The mask of a format: the four bits of the opcode, and the `n` bits from `lo` on that must be zero. -/
def formatMask (lo n : Nat) : CommandWord := 15#4 ++ (BitVec.allOnes n).setWidth 28 <<< lo

theorem getLsbD_formatMask {lo n k : Nat} (hk : k < 32) :
    (formatMask lo n).getLsbD k = decide (28 ≤ k ∨ lo ≤ k ∧ k < lo + n) := by
  rw [formatMask, BitVec.getLsbD_append]
  by_cases h28 : k < 28
  · by_cases hlo : lo ≤ k
    · simp [h28, hlo, show ¬ 28 ≤ k by omega, show k - lo < n ↔ k < lo + n by omega]
    · simp [h28, hlo, show ¬ 28 ≤ k by omega, show k < lo by omega]
  · obtain ⟨j, rfl⟩ := Nat.exists_eq_add_of_le (Nat.not_lt.mp h28)
    have hj : j < 4 := by omega
    interval_cases j <;> simp

/-- Under its format's mask a word is an opcode above zeros exactly when it has that opcode and its zero bits are 0. -/
theorem and_formatMask_eq_iff {w : CommandWord} {op : BitVec 4} {lo n : Nat} (h : lo + n ≤ 28) :
    w &&& formatMask lo n = op ++ 0#28 ↔ opField w = op ∧ w.extractLsb' lo n = 0#n := by
  have bit {k : Nat} (hk : k < 32) : ((w &&& formatMask lo n).getLsbD k = (op ++ 0#28).getLsbD k ↔
      (w.getLsbD k && decide (28 ≤ k ∨ lo ≤ k ∧ k < lo + n)) = if k < 28 then false else op.getLsbD (k - 28)) := by
    rw [BitVec.getLsbD_and, getLsbD_formatMask hk, BitVec.getLsbD_append, BitVec.getLsbD_zero]
  rw [BitVec.eq_of_getLsbD_eq_iff, opField, extractLsb'_eq_iff, extractLsb'_eq_iff]
  constructor
  · intro hw
    refine ⟨fun k hk => ?_, fun k hk => ?_⟩
    · simpa using (bit (by omega)).mp (hw (28 + k) (by omega))
    · simpa [hk, show lo + k < 28 by omega] using (bit (by omega)).mp (hw (lo + k) (by omega))
  · rintro ⟨hop, hzero⟩ k hk
    rw [bit hk]
    by_cases h28 : k < 28
    · by_cases hz : lo ≤ k ∧ k < lo + n
      · obtain ⟨j, rfl⟩ := Nat.exists_eq_add_of_le hz.1
        have hj : w.getLsbD (lo + j) = false := by simpa using hzero j (by omega)
        simp [hj, h28]
      · simp [h28, hz, show ¬ 28 ≤ k by omega]
    · obtain ⟨j, rfl⟩ := Nat.exists_eq_add_of_le (Nat.not_lt.mp h28)
      simpa using hop j (by omega)

/-- The same for a row of the opcode table whose mask and value are those of a format. -/
theorem OpcodeRow.and_mask_eq_iff {r : OpcodeRow} {w : CommandWord} {op : BitVec 4} {lo n : Nat} (h : lo + n ≤ 28)
    (hmask : r.mask = formatMask lo n) (hvalue : r.value = op ++ 0#28) :
    w &&& r.mask = r.value ↔ opField w = op ∧ w.extractLsb' lo n = 0#n := by
  rw [hmask, hvalue, and_formatMask_eq_iff h]

section
variable (w : CommandWord)

theorem and_rowTransact :
    w &&& rowTransact.mask = rowTransact.value ↔ opField w = 0#4 ∧ w.extractLsb' 13 12 = 0#12 :=
  OpcodeRow.and_mask_eq_iff (by decide) (by decide) (by decide)

theorem and_rowWriteConfig :
    w &&& rowWriteConfig.mask = rowWriteConfig.value ↔ opField w = 1#4 ∧ w.extractLsb' 13 15 = 0#15 :=
  OpcodeRow.and_mask_eq_iff (by decide) (by decide) (by decide)

theorem and_rowReadConfig :
    w &&& rowReadConfig.mask = rowReadConfig.value ↔ opField w = 2#4 ∧ w.extractLsb' 0 28 = 0#28 :=
  OpcodeRow.and_mask_eq_iff (by decide) (by decide) (by decide)

theorem and_rowBulkRead :
    w &&& rowBulkRead.mask = rowBulkRead.value ↔ opField w = 3#4 ∧ w.extractLsb' 16 11 = 0#11 :=
  OpcodeRow.and_mask_eq_iff (by decide) (by decide) (by decide)

theorem and_rowInit :
    w &&& rowInit.mask = rowInit.value ↔ opField w = 4#4 ∧ w.extractLsb' 13 7 = 0#7 :=
  OpcodeRow.and_mask_eq_iff (by decide) (by decide) (by decide)

theorem and_rowTeardown :
    w &&& rowTeardown.mask = rowTeardown.value ↔ opField w = 5#4 ∧ w.extractLsb' 0 28 = 0#28 :=
  OpcodeRow.and_mask_eq_iff (by decide) (by decide) (by decide)

end

/-! ### The decoder -/

/-- The decoder's dispatch on the opcode. -/
theorem decode_cases (w : CommandWord) (tcfg : TCfg) :
    (opField w = 0#4 ∧ decode w tcfg = decodeTransact w) ∨
    (opField w = 1#4 ∧ decode w tcfg = decodeWriteConfig w) ∨
    (opField w = 2#4 ∧ decode w tcfg = decodeReadConfig w) ∨
    (opField w = 3#4 ∧ decode w tcfg = decodeBulkRead w) ∨
    (opField w = 4#4 ∧ decode w tcfg = decodeInit w tcfg) ∨
    (opField w = 5#4 ∧ decode w tcfg = decodeTeardown w) ∨
    (6 ≤ (opField w).toNat ∧ decode w tcfg = .error (.reservedOpcode (opField w))) := by
  have op_eq {k : Nat} (h : (opField w).toNat = k) : opField w = BitVec.ofNat 4 k := by
    rw [← h, BitVec.ofNat_toNat, BitVec.setWidth_eq]
  unfold decode
  split
  case h_7 h0 h1 h2 h3 h4 h5 =>
    simp only [imp_false] at h0 h1 h2 h3 h4 h5
    exact .inr (.inr (.inr (.inr (.inr (.inr ⟨by omega, rfl⟩)))))
  all_goals next h => simp [op_eq h]

/-- A word decodes to an instruction in one of six ways: by its opcode, with its format's zero bits 0, the operands cut
from the format's positions. -/
theorem decode_eq_ok_iff {w : CommandWord} {tcfg : TCfg} {i : Instr TCfg} : decode w tcfg = .ok i ↔
    ((opField w = 0#4 ∧ w.extractLsb' 13 12 = 0#12) ∧
      .transact (w.getLsbD 27) (w.getLsbD 26) (w.getLsbD 25) (cfgField w) = i) ∨
    ((opField w = 1#4 ∧ w.extractLsb' 13 15 = 0#15) ∧ .writeConfig (cfgField w) = i) ∨
    ((opField w = 2#4 ∧ w.extractLsb' 0 28 = 0#28) ∧ .readConfig = i) ∨
    ((opField w = 3#4 ∧ w.extractLsb' 16 11 = 0#11) ∧ .bulkRead (w.getLsbD 27) (w.extractLsb' 0 16) = i) ∨
    ((opField w = 4#4 ∧ w.extractLsb' 13 7 = 0#7) ∧ .init (w.extractLsb' 20 8) (cfgField w) tcfg = i) ∨
    ((opField w = 5#4 ∧ w.extractLsb' 0 28 = 0#28) ∧ .teardown = i) := by
  rcases decode_cases w tcfg with ⟨h, hd⟩ | ⟨h, hd⟩ | ⟨h, hd⟩ | ⟨h, hd⟩ | ⟨h, hd⟩ | ⟨h, hd⟩ | ⟨h, hd⟩
  · simp [h, hd, decodeTransact]
  · simp [h, hd, decodeWriteConfig]
  · simp [h, hd, decodeReadConfig]
  · simp [h, hd, decodeBulkRead]
  · simp [h, hd, decodeInit]
  · simp [h, hd, decodeTeardown]
  · have ne {k : BitVec 4} (hk : k.toNat < 6) : opField w ≠ k := by rintro rfl; omega
    simp [hd, ne]


/-- The decoder refuses a word exactly when it reads no instruction from it. -/
theorem exists_decode_eq_error_iff {w : CommandWord} {tcfg : TCfg} :
    (∃ e, decode w tcfg = .error e) ↔ ¬ ∃ i, decode w tcfg = .ok i := by
  cases decode w tcfg <;> simp

/-- The opcode table and the decoder accept the same words. -/
theorem legalWord_iff_exists_decode_eq_ok {w : CommandWord} {tcfg : TCfg} :
    legalWord w = true ↔ ∃ i, decode w tcfg = .ok i := by
  simp [legalWord, opcodeTable, OpcodeRow.matches, and_rowTransact, and_rowWriteConfig, and_rowReadConfig,
    and_rowBulkRead, and_rowInit, and_rowTeardown, decode_eq_ok_iff, exists_or]

/-- An illegal word has a reserved opcode, or a bit of 1 among its format's zero bits (R82). -/
theorem exists_decode_eq_error_iff_bits {w : CommandWord} {tcfg : TCfg} : (∃ e, decode w tcfg = .error e) ↔
    6 ≤ (opField w).toNat ∨
    (opField w = 0#4 ∧ w.extractLsb' 13 12 ≠ 0#12) ∨
    (opField w = 1#4 ∧ w.extractLsb' 13 15 ≠ 0#15) ∨
    (opField w = 2#4 ∧ w.extractLsb' 0 28 ≠ 0#28) ∨
    (opField w = 3#4 ∧ w.extractLsb' 16 11 ≠ 0#11) ∨
    (opField w = 4#4 ∧ w.extractLsb' 13 7 ≠ 0#7) ∨
    (opField w = 5#4 ∧ w.extractLsb' 0 28 ≠ 0#28) := by
  rcases decode_cases w tcfg with ⟨h, hd⟩ | ⟨h, hd⟩ | ⟨h, hd⟩ | ⟨h, hd⟩ | ⟨h, hd⟩ | ⟨h, hd⟩ | ⟨h, hd⟩
  · simp [h, hd, decodeTransact]
  · simp [h, hd, decodeWriteConfig]
  · simp [h, hd, decodeReadConfig]
  · simp [h, hd, decodeBulkRead]
  · simp [h, hd, decodeInit]
  · simp [h, hd, decodeTeardown]
  · simp [h, hd]

end

/-- Settles O12: by `decode_eq_ok_iff` a word decodes to a row's instruction exactly when it has the row's opcode and zero
bits, and the row's mask says the same. -/
theorem decodeReadsTheFormats : Obligations.DecodeReadsTheFormats := by
  unfold Obligations.DecodeReadsTheFormats
  intro w tcfg
  refine ⟨(and_rowTransact w).trans ?_, (and_rowWriteConfig w).trans ?_, (and_rowReadConfig w).trans ?_,
    (and_rowBulkRead w).trans ?_, (and_rowInit w).trans ?_, (and_rowTeardown w).trans ?_, ?illegal⟩
  case illegal =>
    rw [exists_decode_eq_error_iff, ← legalWord_iff_exists_decode_eq_ok, Bool.not_eq_true]
  all_goals simp [decode_eq_ok_iff, cfgField]

end Sys2Proof

namespace Sys2Proof.Machine

/-! ### A step on an illegal word (R82) -/

section
variable {TCfg TErr : Type}

/-- An engine that does not wait takes the first input of its port. -/
theorem nextInput_of_port {s : State TCfg TErr} {x : Input TCfg} {rest : List (Input TCfg)} (hw : s.waiting = none)
    (hp : s.port = x :: rest) : nextInput s = some (x, s.accept rest) := by
  simp [nextInput, hw, hp]

end

/-- A step on an illegal word takes it from the port and answers INVALID_ARGUMENT. -/
theorem step_of_decode_eq_error {s : State} {c : Command} {rest : List Input} {e : Illegal} (hw : s.waiting = none)
    (hp : s.port = .command c :: rest) (hd : decode c.word c.tcfg = .error e) :
    step s = .next ((s.accept rest).respond .invalid) := by
  simp only [step, stepWith, nextInput_of_port hw hp, hd, illegalCommand]

/-- Settles O13: which words the decoder refuses is `exists_decode_eq_error_iff_bits`, and the answer to one is a
response alone. -/
theorem illegalWordAnswersInvalidArgument : Obligations.IllegalWordAnswersInvalidArgument := by
  unfold Obligations.IllegalWordAnswersInvalidArgument
  exact ⟨fun _ _ => exists_decode_eq_error_iff_bits, fun _ _ _ _ hw hp hd => step_of_decode_eq_error hw hp hd⟩

/-! ### The results of a response (R80) -/

section
variable {TCfg TErr : Type} {s t : State TCfg TErr} {i : Instr TCfg} {r r' : Response TErr}

/-- A well-formed response, with a sample only where the command is a TRANSACT that asks for one, and a configuration
only where it is a TRANSACT that asks for one or a READ_CONFIG. -/
def MayReturn (i : Instr TCfg) (r : Response TErr) : Prop :=
  r.wf = true ∧ (r.sv = true → ∃ cwe wc cfg, i = .transact cwe wc true cfg) ∧
    (r.cv = true → (∃ cwe ws cfg, i = .transact cwe true ws cfg) ∨ i = .readConfig)

/-- Any command may return a status without a result. -/
theorem MayReturn.plain {st : Status} {e : Option TErr} (h : e.isSome = (st == .transportFailure)) :
    MayReturn i (Response.plain st e) :=
  ⟨by simp [Response.wf, Response.plain, h], nofun, nofun⟩

theorem transactResponse_wf (v : BitVec 2) (wc ws ra : Bool) (inb : Bytes) :
    (transactResponse v wc ws ra inb : Response TErr).wf = true := by
  cases ws <;> cases hc : wc && ra <;> simp [Response.wf, transactResponse, hc]

theorem MayReturn.transact (cwe wc ws : Bool) (c : RegisterConfig) (v : BitVec 2) (ra : Bool) (inb : Bytes) :
    MayReturn (.transact cwe wc ws c : Instr TCfg) (transactResponse v wc ws ra inb : Response TErr) := by
  refine ⟨transactResponse_wf v wc ws ra inb, fun hsv => ?_, fun hcv => .inl ?_⟩
  · obtain rfl : ws = true := hsv
    exact ⟨cwe, wc, c, rfl⟩
  · obtain ⟨rfl, -⟩ : wc = true ∧ ra = true := Bool.and_eq_true_iff.mp hcv
    exact ⟨cwe, ws, c, rfl⟩

/-- A confirmation-only transfer gives READ_CONFIG no sample. -/
theorem MayReturn.readConfig (v : BitVec 2) (ra : Bool) (inb : Bytes) :
    MayReturn (.readConfig : Instr TCfg) (transactResponse v true false ra inb : Response TErr) :=
  ⟨transactResponse_wf v true false ra inb, nofun, fun _ => .inr rfl⟩

/-- A command that does not wait has ended in a response it may return. -/
theorem ExecTo.exists_respond (h : ExecTo s i t) (hw : t.waiting = none) :
    ∃ u r, t = State.respond r u ∧ MayReturn i r := by
  cases h with
  | uninit | transactErr | writeOk | writeErr | shortErr | longAErr | longBErr | longCErr | bulkNull | bulkOk | bulkErr
  | initTag | initInUse | initAcqErr | initWriteErr | initConvErr | initOk | teardown =>
    exact ⟨_, _, rfl, .plain rfl⟩
  | transactOk cwe wc ws c => exact ⟨_, _, rfl, .transact cwe wc ws c _ _ _⟩
  | shortOk | longOk => exact ⟨_, _, rfl, .readConfig _ _ _⟩
  -- the engine waits
  | transactHung | writeHung | shortHung | longAHung | longBHung | longCHung | bulkHung | initAcqHung | initWriteHung
  | initConvHung => simp at hw

/-- A command that came to an idle engine and delivered a response does not wait. -/
theorem CommandEnds.waiting_eq_none (h : CommandEnds s t) (hs : s.waiting = none) {evs : List (Event TCfg TErr)}
    (hlog : t.log = s.log ++ evs ++ [.resp r]) : t.waiting = none := by
  by_contra hw
  have hresp : t.responses = s.responses := h.responses_eq hs hw
  simp [State.responses, hlog] at hresp

/-- The response a command ends in is the last event of the log. -/
theorem respond_log_inj {evs : List (Event TCfg TErr)} (h : (s.respond r).log = evs ++ [.resp r']) : r = r' := by
  simpa using (List.append_inj' h rfl).2

end

/-- Settles O38: a command that delivers a response ends in one it may return, and that is the one in the log. -/
theorem whichCommandsReturnResults : Obligations.WhichCommandsReturnResults := by
  unfold Obligations.WhichCommandsReturnResults
  intro i s t evs r hs h hlog
  have hw : t.waiting = none := (exec_cases h).commandEnds.waiting_eq_none hs hlog
  obtain ⟨u, r', rfl, hr'⟩ := (exec_cases h).exists_respond hw
  exact respond_log_inj hlog ▸ hr'

end Sys2Proof.Machine

/-! ## The pure functions of a transaction, and TRANSACT (spec 40_transact R100 to R112) -/

namespace Sys2Proof.Machine

/-! ### The outbound word (R100, R101) -/

section
variable (c : RegisterConfig)

/-- The fields above the readback bit stand in the outbound word two places higher (R78). -/
theorem packCfg_extractLsb' {lo n : Nat} (hlo : 1 ≤ lo := by omega) (hn : lo + n ≤ 13 := by omega) :
    (packCfg c).extractLsb' (lo + 2) n = c.extractLsb' lo n := by
  refine extractLsb'_eq_iff.mpr fun k hk => ?_
  rw [packCfg_bit c (by omega), BitVec.getLsbD_extractLsb', show lo + 2 + k - 2 = lo + k by omega]
  simp [hk, show ¬ lo + 2 + k < 2 by omega, show lo + 2 + k ≠ 2 by omega, show lo + 2 + k < 15 by omega]

/-- The outbound word in four parts: write-enable, the fields above the readback bit, that bit inverted, the pad. -/
theorem packCfg_eq_append :
    packCfg c = 1#1 ++ c.extractLsb' 1 12 ++ BitVec.ofBool (!c.getLsbD 0) ++ 0#2 := by
  apply BitVec.eq_of_getLsbD_eq
  intro k hk
  rw [packCfg_bit c hk]
  interval_cases k <;> simp only [BitVec.getLsbD_append] <;> simp

/-- The mask of the fields above the readback bit clears that bit and what lies above the 13 bits. -/
theorem and_fieldsMask_eq_two_mul (n : Nat) : n &&& 0x1FFE = 2 * (n / 2 % 2 ^ 12) := by
  have hdiv : (n &&& 0x1FFE) / 2 = n / 2 % 2 ^ 12 := by
    rw [Nat.and_div_two]
    exact Nat.and_two_pow_sub_one_eq_mod _ 12
  have hmod : (n &&& 0x1FFE) % 2 = 0 := by
    rw [Nat.and_mod_two_pow (n := 1)]
    simp
  omega

/-- The rule's arithmetic form of `PackCfg` (R100): the parts of `packCfg_eq_append` do not overlap, so they add up. -/
theorem packCfg_toNat :
    (packCfg c).toNat = 0x8000 + ((c.toNat &&& 0x1FFE) <<< 2) + ((1 - c.toNat % 2) <<< 2) := by
  have hrb : (BitVec.ofBool (!c.getLsbD 0)).toNat = 1 - c.toNat % 2 := by
    rcases Nat.mod_two_eq_zero_or_one c.toNat with h | h <;> simp [BitVec.getLsbD, h]
  rw [packCfg_eq_append, BitVec.toNat_append, BitVec.toNat_append, BitVec.toNat_append, hrb, BitVec.extractLsb'_toNat,
    ← Nat.shiftLeft_add_eq_or_of_lt (by omega), ← Nat.shiftLeft_add_eq_or_of_lt (by omega),
    ← Nat.shiftLeft_add_eq_or_of_lt (Nat.mod_lt _ (by decide)), and_fieldsMask_eq_two_mul]
  simp only [Nat.shiftLeft_eq, Nat.shiftRight_eq_div_pow, BitVec.toNat_ofNat]
  omega

/-- Unpacking the wire word of a configuration gives the configuration back (R108): the two inversions of the readback
bit cancel. -/
@[simp] theorem unpackCfg_packCfg : unpackCfg ((packCfg c).extractLsb' 2 14) = c := by
  apply BitVec.eq_of_getLsbD_eq
  intro k hk
  rw [unpackCfg_bit _ hk, BitVec.getLsbD_extractLsb', BitVec.getLsbD_extractLsb', packCfg_bit c (by omega),
    packCfg_bit c (by omega)]
  by_cases h0 : k = 0
  · simp [h0]
  · simp [h0, show k < 14 by omega, show 1 < 2 + k by omega, show 2 + k < 15 by omega]

theorem packCfg_injective : Function.Injective packCfg := by
  intro c d h
  rw [← unpackCfg_packCfg c, h, unpackCfg_packCfg]

/-- The first two bytes of an exchange carry the outbound word, big-endian (R46, R101). -/
@[simp] theorem raw16_outBytes (cwe : Bool) (n : XferLen) :
    raw16 (outBytes cwe c n) = if cwe then packCfg c else 0#16 := by
  have join (w : Word16) : w.extractLsb' 8 8 ++ w.extractLsb' 0 8 = w :=
    (BitVec.extractLsb'_append_extractLsb'_eq_extractLsb' (len₁ := 8) rfl).trans BitVec.extractLsb'_eq_self
  cases n with
  | two => exact join _
  | four => exact join _

/-- What an exchange writes can be read back from its bytes (R78). -/
@[simp] theorem writtenConfig_outBytes (cwe : Bool) (n : XferLen) :
    writtenConfig (outBytes cwe c n) = if cwe then some c else none := by
  cases cwe with
  | false => simp [writtenConfig]
  | true =>
    have hwe : (packCfg c).getLsbD 15 = true := packCfg_bit c (by omega)
    rw [writtenConfig, raw16_outBytes, if_pos rfl, if_pos hwe, unpackCfg_packCfg, if_pos rfl]

variable {c}

/-- The last two bytes of an exchange of 4 are zero (R101). -/
theorem outBytes_eq_four {cwe : Bool} {n : XferLen} {b0 b1 b2 b3 : Byte}
    (h : outBytes cwe c n = .four b0 b1 b2 b3) : b2 = 0#8 ∧ b3 = 0#8 := by
  cases n with
  | two => simp [outBytes] at h
  | four =>
    obtain ⟨-, -, rfl, rfl⟩ := Bytes.four.inj h
    exact ⟨rfl, rfl⟩

end

/-- Settles O1: the places are read off `packCfg_bit` and `packCfg_extractLsb'`; `PackCfg` is injective because
`UnpackCfg` undoes it. -/
theorem packCfgPlacesEveryField : Obligations.PackCfgPlacesEveryField := by
  unfold Obligations.PackCfgPlacesEveryField
  refine ⟨fun c => ?places, packCfg_toNat, fun _ _ h => packCfg_injective h, by decide, by decide, by decide⟩
  case places =>
    have pad : (packCfg c).extractLsb' 0 2 = 0#2 := by
      rw [packCfg_eq_append, BitVec.extractLsb'_append_eq_right]
    exact ⟨packCfg_bit c (by decide), packCfg_extractLsb' c, packCfg_extractLsb' c, packCfg_bit c (by decide),
      packCfg_extractLsb' c, packCfg_extractLsb' c, packCfg_bit c (by decide), pad⟩

/-- Settles O2, each clause by its lemma on `outBytes`. -/
theorem outBytesCarryTheWrittenConfig : Obligations.OutBytesCarryTheWrittenConfig := by
  unfold Obligations.OutBytesCarryTheWrittenConfig
  intro cwe c n
  exact ⟨outBytes_len cwe c n, raw16_outBytes c cwe n, fun _ _ _ _ h => outBytes_eq_four h,
    writtenConfig_outBytes c cwe n⟩

/-! ### The sample (R103, R104) -/

section
variable (inb : Bytes)

theorem sampleValue_v14 : sampleValue 2#2 inb = (raw16 inb).toInt.tdiv 4 := rfl

theorem sampleValue_of_ne {v : BitVec 2} (hv : v ≠ 2#2) : sampleValue v inb = (raw16 inb).toInt := if_neg hv

/-- The range of the 14-bit variant: division toward zero is monotone, and the raw value has 16 bits. -/
theorem sampleValue_v14_bounds : -8192 ≤ sampleValue 2#2 inb ∧ sampleValue 2#2 inb ≤ 8191 := by
  have hlo : -32768 ≤ (raw16 inb).toInt := (raw16 inb).le_toInt
  have hhi : (raw16 inb).toInt ≤ 32767 := Int.le_sub_one_of_lt (raw16 inb).toInt_lt
  exact ⟨Int.tdiv_le_tdiv (by decide) hlo, Int.tdiv_le_tdiv (by decide) hhi⟩

/-- The delivered 16-bit pattern of a 14-bit sample has the sample's value, which is in range. -/
theorem decodeSample_v14_toInt : (decodeSample 2#2 inb).toInt = sampleValue 2#2 inb := by
  obtain ⟨hlo, hhi⟩ := sampleValue_v14_bounds inb
  exact BitVec.toInt_ofInt_eq_self (by decide) (by omega) (by omega)

/-- The other variants deliver the raw word. -/
theorem decodeSample_of_ne {v : BitVec 2} (hv : v ≠ 2#2) : decodeSample v inb = raw16 inb := by
  rw [decodeSample, sampleValue_of_ne inb hv, BitVec.ofInt_toInt]

end

/-- Settles O3: the value is in range of 16 bits for every variant, so the delivered pattern has it. -/
theorem sampleDecoder : Obligations.SampleDecoder := by
  unfold Obligations.SampleDecoder
  refine ⟨fun _ _ _ _ => ⟨rfl, rfl⟩, fun v inb hv => ?other, fun inb => ?v14, by decide, by decide, by decide⟩
  case other => rw [decodeSample_of_ne inb hv]
  case v14 =>
    rw [decodeSample_v14_toInt]
    exact ⟨sampleValue_v14 inb, sampleValue_v14_bounds inb⟩

/-! ### The echo (R106, R107, R108) -/

section
variable (b0 b1 b2 b3 : Byte)

theorem echoWord_four (v : BitVec 2) :
    echoWord v (.four b0 b1 b2 b3) = (b0 ++ b1 ++ b2 ++ b3).extractLsb' (if v = 2#2 then 4 else 2) 14 := by
  by_cases h : v = 2#2 <;> simp [echoWord, v14, h, frame, Config.echo14Lsb]

/-- The window of the 14-bit variant: the last two bits of byte 1, byte 2, and the upper half of byte 3. -/
theorem echoWord_v14 :
    echoWord 2#2 (.four b0 b1 b2 b3) = b1.extractLsb' 0 2 ++ b2 ++ b3.extractLsb' 4 4 := by
  have hsplit : echoWord 2#2 (.four b0 b1 b2 b3) =
      (b0 ++ b1 ++ b2 ++ b3).extractLsb' 16 2 ++ (b0 ++ b1 ++ b2 ++ b3).extractLsb' 8 8 ++
        (b0 ++ b1 ++ b2 ++ b3).extractLsb' 4 4 := by
    rw [echoWord_four, if_pos rfl, BitVec.extractLsb'_append_extractLsb'_eq_extractLsb' (by rfl),
      BitVec.extractLsb'_append_extractLsb'_eq_extractLsb' (by rfl)]
  rw [hsplit, BitVec.extractLsb'_append_eq_of_le (by decide), BitVec.extractLsb'_append_eq_of_le (by decide),
    BitVec.extractLsb'_append_eq_of_add_le (by decide), BitVec.extractLsb'_append_eq_of_le (by decide),
    BitVec.extractLsb'_append_eq_right, BitVec.extractLsb'_append_eq_of_add_le (by decide)]

theorem echoWord_v14_toNat : (echoWord 2#2 (.four b0 b1 b2 b3)).toNat =
    (((b1.toNat &&& 3) <<< 12) ||| (b2.toNat <<< 4)) ||| (b3.toNat >>> 4) := by
  have hb1 : b1.toNat &&& 3 = b1.toNat % 2 ^ 2 := Nat.and_two_pow_sub_one_eq_mod _ 2
  have hb3 : b3.toNat >>> 4 % 2 ^ 4 = b3.toNat >>> 4 :=
    Nat.mod_eq_of_lt (by rw [Nat.shiftRight_eq_div_pow]; omega)
  rw [echoWord_v14, BitVec.toNat_append, BitVec.toNat_append, BitVec.extractLsb'_toNat, BitVec.extractLsb'_toNat, hb1,
    hb3, Nat.shiftLeft_or_distrib, ← Nat.shiftLeft_add, Nat.shiftRight_zero]

variable {v : BitVec 2} (hv : v ≠ 2#2)
include hv

/-- The window of the other variants lies in bytes 2 and 3. -/
theorem echoWord_of_ne : echoWord v (.four b0 b1 b2 b3) = (b2 ++ b3).extractLsb' 2 14 := by
  rw [echoWord_four, if_neg hv, BitVec.append_assoc, BitVec.extractLsb'_cast,
    BitVec.extractLsb'_append_eq_of_add_le (by decide)]

theorem echoWord_of_ne_toNat :
    (echoWord v (.four b0 b1 b2 b3)).toNat = ((b2.toNat <<< 8) ||| b3.toNat) >>> 2 := by
  have hlt : (b2 ++ b3).toNat >>> 2 < 2 ^ 14 := by
    rw [Nat.shiftRight_eq_div_pow]
    omega
  rw [echoWord_of_ne b0 b1 b2 b3 hv, BitVec.extractLsb'_toNat, Nat.mod_eq_of_lt hlt, BitVec.toNat_append]

end

section
variable (e : BitVec 14)

/-- The fields above the readback bit stand in the configuration where they stand in the echo word. -/
theorem unpackCfg_extractLsb' {lo n : Nat} (hlo : 1 ≤ lo := by omega) (hn : lo + n ≤ 13 := by omega) :
    (unpackCfg e).extractLsb' lo n = e.extractLsb' lo n := by
  refine extractLsb'_eq_iff.mpr fun k hk => ?_
  rw [unpackCfg_bit e (by omega), if_neg (by omega), BitVec.getLsbD_extractLsb']
  simp [hk]

theorem unpackCfg_eq_append : unpackCfg e = e.extractLsb' 1 12 ++ BitVec.ofBool (!e.getLsbD 0) := by
  apply BitVec.eq_of_getLsbD_eq
  intro k hk
  rw [unpackCfg_bit e hk, BitVec.getLsbD_append]
  rcases k with - | k
  · simp
  · simp [show k < 12 by omega, Nat.add_comm]

variable {e}

/-- Bit 13 of the echo word is not read (R107). -/
theorem unpackCfg_congr {e' : BitVec 14} (h : e.extractLsb' 0 13 = e'.extractLsb' 0 13) :
    unpackCfg e = unpackCfg e' := by
  have bit {k : Nat} (hk : k < 13) : e.getLsbD k = e'.getLsbD k := by
    simpa [hk] using congrArg (·.getLsbD k) h
  apply BitVec.eq_of_getLsbD_eq
  intro k hk
  rw [unpackCfg_bit e hk, unpackCfg_bit e' hk, bit hk, bit (by omega)]

end

/-- Settles O6: the window is a slice of the frame, cut into whole parts of the bytes for the arithmetic form. -/
theorem echoWindowArithmetic : Obligations.EchoWindowArithmetic := by
  unfold Obligations.EchoWindowArithmetic
  exact ⟨fun v b0 b1 b2 b3 => echoWord_four b0 b1 b2 b3 v, echoWord_v14_toNat,
    fun _ b0 b1 b2 b3 hv => echoWord_of_ne_toNat b0 b1 b2 b3 hv, by decide, by decide⟩

/-- Settles O7: each field is a slice, by `unpackCfg_extractLsb'`, and the readback bit is bit 0, by `unpackCfg_bit`. -/
theorem unpackCfgReadsEveryField : Obligations.UnpackCfgReadsEveryField := by
  unfold Obligations.UnpackCfgReadsEveryField
  refine ⟨fun e => ?fields, fun _ _ h => unpackCfg_congr h, by decide, by decide⟩
  case fields =>
    exact ⟨unpackCfg_extractLsb' e, unpackCfg_extractLsb' e, unpackCfg_extractLsb' e, unpackCfg_extractLsb' e,
      unpackCfg_extractLsb' e, unpackCfg_bit e (by decide), unpackCfg_eq_append e⟩

/-- Settles O8: the echo window holds the wire word, and `unpackCfg_packCfg` reads the configuration back from it. -/
theorem packUnpackRoundTrip : Obligations.PackUnpackRoundTrip := by
  unfold Obligations.PackUnpackRoundTrip
  refine ⟨unpackCfg_packCfg, fun v c b0 b1 b2 b3 hv hw => ?other, fun c b0 b1 b2 b3 hw => ?v14⟩
  case other => rw [echoWord_of_ne b0 b1 b2 b3 hv, hw, unpackCfg_packCfg]
  case v14 =>
    have hecho : echoWord 2#2 (.four b0 b1 b2 b3) = (packCfg c).extractLsb' 2 14 := hw
    rw [hecho, unpackCfg_packCfg]

/-- Settles O5: the length rule on its four inputs, and the two forms of `Advance`. -/
theorem lengthRuleAndAdvance : Obligations.LengthRuleAndAdvance := by
  unfold Obligations.LengthRuleAndAdvance
  exact ⟨⟨rfl, rfl, rfl, rfl⟩, fun _ _ _ => ⟨rfl, rfl⟩⟩

/-! ### TRANSACT (R110 to R112) -/

section
open Sys2Proof.Config
variable {TCfg TErr : Type} {cwe wc ws : Bool} {c : RegisterConfig} {s : State TCfg TErr}

/-- What an exchange takes of four offered bytes, by the length rule (R42, R102). -/
theorem inBytes_xferLen (wc rbActive : Bool) (f : InFrame) :
    inBytes (xferLen wc rbActive) f.b0 f.b1 f.b2 f.b3 = if wc && rbActive then f.four else f.two := by
  cases h : wc && rbActive <;> simp [xferLen, h, inBytes, InFrame.four, InFrame.two]

/-- The answer to the one request asked is the answer to the next `Xfer`. -/
theorem xferAnswer_of_nextAnswers {out : Bytes} {ans : XferAnswer TErr} (h : nextAnswers [out] s = [ans]) :
    (xferAnswer out s).1 = ans :=
  List.singleton_inj.mp h

theorem execTransact_unready (h : s.ready = false) :
    execTransact cwe wc ws c s = .next (s.respond .invalid) := by
  rw [execTransact, whenReady_unready h, Flow.finish_done]

/-- TRANSACT whose exchange succeeds: `transact_ok` and then the response, in one state. -/
theorem execTransact_ok {f : InFrame} (hr : s.ready = true)
    (h : nextAnswers [transactOut cwe c wc s] s = [f.answer]) :
    execTransact cwe wc ws c s = .next { afterAnswers [transactOut cwe c wc s] s with
      p := if cwe then c else s.p
      a := s.p
      seqStep := 0
      log := s.log ++ [.xfer (transactOut cwe c wc s) (.ok (if wc && rbAct s then f.four else f.two)),
        .resp (transactResponse s.v wc ws (rbAct s) (if wc && rbAct s then f.four else f.two))] } := by
  rw [execTransact, whenReady_ready hr, transact_ok (xferAnswer_of_nextAnswers h), inBytes_xferLen, Flow.finish_done]
  simp [State.respond, State.advance, State.emit, afterAnswers, advanceSlots]

/-- TRANSACT whose exchange fails: `transact_err` and then the response, in one state. -/
theorem execTransact_err {e : TErr} (hr : s.ready = true)
    (h : nextAnswers [transactOut cwe c wc s] s = [.err e]) :
    execTransact cwe wc ws c s = .next { afterAnswers [transactOut cwe c wc s] s with
      seqStep := 0
      log := s.log ++ [.xfer (transactOut cwe c wc s) (.err e), .resp (.transport e)] } := by
  rw [execTransact, whenReady_ready hr, transact_err (xferAnswer_of_nextAnswers h), Flow.finish_done]
  simp [State.respond, State.emit, afterAnswers]

end

/-- Settles O19: the three equations of `execTransact`, the bytes sent and the response written out. -/
theorem transactCommand : Obligations.TransactCommand := by
  unfold Obligations.TransactCommand
  intro cwe wc ws cfg s n out
  exact ⟨execTransact_unready, fun _ hr h => execTransact_ok hr h, fun _ hr h => execTransact_err hr h⟩

end Sys2Proof.Machine

/-! ## WRITE_CONFIG and READ_CONFIG (spec 41_config_ops R130 to R134) -/

namespace Sys2Proof.Machine

open Sys2Proof.Config

section
variable {TCfg TErr : Type} {c : RegisterConfig} {s : State TCfg TErr} {f : InFrame} {e : TErr}
variable {outs : List Bytes} {rest : List (XferAnswer TErr)}

/-! ### The state after an exchange -/

/-- The state after a successful exchange: its event, then the shadow advanced (R110). -/
def State.exchanged (cwe : Bool) (c : RegisterConfig) (out inb : Bytes) (s : State TCfg TErr) : State TCfg TErr :=
  ((xferAnswer out s).2.emit (.xfer out (.ok inb))).advance cwe c

/-- The state after a failed exchange: its event and nothing else (R111). -/
def State.exchangeFailed (out : Bytes) (e : TErr) (s : State TCfg TErr) : State TCfg TErr :=
  (xferAnswer out s).2.emit (.xfer out (.err e))

section
variable {cwe : Bool} {out inb : Bytes}

@[simp] theorem v_exchanged : (s.exchanged cwe c out inb).v = s.v := rfl
@[simp] theorem p_exchanged : (s.exchanged cwe c out inb).p = if cwe then c else s.p := rfl
@[simp] theorem a_exchanged : (s.exchanged cwe c out inb).a = s.p := rfl
@[simp] theorem log_exchanged : (s.exchanged cwe c out inb).log = s.log ++ [.xfer out (.ok inb)] := rfl

/-- A command that ends after a successful exchange, in one state. -/
theorem respond_exchanged (r : Response TErr) :
    (s.exchanged cwe c out inb).respond r = { afterAnswers [out] s with
      p := if cwe then c else s.p
      a := s.p
      seqStep := 0
      log := s.log ++ [.xfer out (.ok inb), .resp r] } := by
  rw [State.respond, log_exchanged, List.append_assoc]
  rfl

/-- A command that ends after a failed exchange, in one state. -/
theorem respond_exchangeFailed (r : Response TErr) :
    (s.exchangeFailed out e).respond r = { afterAnswers [out] s with
      seqStep := 0
      log := s.log ++ [.xfer out (.err e), .resp r] } := by
  simp [State.respond, State.exchangeFailed, State.emit, afterAnswers]

/-- A successful exchange takes one answer: what the transport answers next is the rest. -/
theorem nextAnswers_exchanged {ans : XferAnswer TErr} (h : nextAnswers (out :: outs) s = ans :: rest) :
    nextAnswers outs (s.exchanged cwe c out inb) = rest := by
  refine (nextAnswers_congr outs ?queue ?counter).1.trans (List.cons.inj h).2
  case queue => rfl
  case counter => rfl

end

/-! ### The writes of both commands (R130, R134) -/

theorem transact_write_ok (h : nextAnswers (outBytes true c .two :: outs) s = f.answer :: rest) :
    transact true c false false s = .done (s.exchanged true c (outBytes true c .two) f.two) .okPlain :=
  transact_ok (List.cons.inj h).1

theorem transact_write_err (h : nextAnswers (outBytes true c .two :: outs) s = .err e :: rest) :
    transact true c false false s = .done (s.exchangeFailed (outBytes true c .two) e) (.transport e) :=
  transact_err (List.cons.inj h).1

variable {k : State TCfg TErr → Response TErr → Part TCfg TErr}

/-- After a successful write the next part begins in the state the write left. -/
theorem onOk_write_ok (h : nextAnswers (outBytes true c .two :: outs) s = f.answer :: rest) :
    (transact true c false false s).onOk k = k (s.exchanged true c (outBytes true c .two) f.two) .okPlain := by
  rw [transact_write_ok h]
  rfl

/-- A failed write ends the command at once, its error unchanged. -/
theorem onOk_write_err (h : nextAnswers (outBytes true c .two :: outs) s = .err e :: rest) :
    (transact true c false false s).onOk k = .done (s.exchangeFailed (outBytes true c .two) e) (.transport e) := by
  rw [transact_write_err h]
  rfl

/-! ### The confirmation read (R133) -/

/-- The bytes of a confirmation-only read that finds readback active. -/
def confirmOut : Bytes := .four 0#8 0#8 0#8 0#8

theorem transactOut_confirm (hb : rb s.a = true) : transactOut false zeroConfig true s = confirmOut := by
  rw [transactOut, show rbAct s = true from hb]
  rfl

theorem confirmRead_ok (hb : rb s.a = true) (h : nextAnswers [confirmOut] s = [f.answer]) :
    confirmRead s = .done (s.exchanged false zeroConfig confirmOut f.four)
      ⟨.ok, none, false, 0#16, true, unpackCfg (echoWord s.v f.four)⟩ := by
  rw [← transactOut_confirm hb] at h ⊢
  rw [confirmRead, transact_ok (xferAnswer_of_nextAnswers h), show rbAct s = true from hb]
  rfl

theorem confirmRead_err (hb : rb s.a = true) (h : nextAnswers [confirmOut] s = [.err e]) :
    confirmRead s = .done (s.exchangeFailed confirmOut e) (.transport e) := by
  rw [← transactOut_confirm hb] at h ⊢
  exact transact_err (xferAnswer_of_nextAnswers h)

/-! ### READ_CONFIG's two paths (R132) -/

theorem execReadConfig_short (hr : s.ready = true) (hb : rb s.a = true) :
    execReadConfig s = (confirmRead s).finish := by
  rw [execReadConfig, whenReady_ready hr, if_pos (show rbAct s = true from hb)]

/-- The long path: the second write is of the old `A` itself, whose readback flag is 0 already. -/
theorem execReadConfig_long (hr : s.ready = true) (hb : rb s.a = false) :
    execReadConfig s = ((transact true (withRb s.a true) false false s).onOk fun s1 _ =>
      (transact true s.a false false s1).onOk fun s2 _ => confirmRead s2).finish := by
  rw [execReadConfig, whenReady_ready hr, if_neg (by simp [rbAct, hb]), readConfigLong, withRb_self hb]

/-- Where both writes of the long path answer OK, what is left is the confirmation read (R134). -/
theorem execReadConfig_long_confirm {g : InFrame} (hr : s.ready = true) (hb : rb s.a = false)
    (h : nextAnswers (outBytes true (withRb s.a true) .two :: outBytes true s.a .two :: outs) s =
      f.answer :: g.answer :: rest) :
    execReadConfig s = (confirmRead
      ((s.exchanged true (withRb s.a true) (outBytes true (withRb s.a true) .two) f.two).exchanged
        true s.a (outBytes true s.a .two) g.two)).finish := by
  rw [execReadConfig_long hr hb, onOk_write_ok h, onOk_write_ok (nextAnswers_exchanged h)]

end

/-- The copy of `A` that the long path writes first agrees with it above the readback bit. -/
theorem withRb_extractLsb' (c : RegisterConfig) (b : Bool) :
    (withRb c b).extractLsb' 1 12 = c.extractLsb' 1 12 := by
  have fields (b : Bool) : (withRb c b).extractLsb' 1 12 = incc c ++ inx c ++ bw c ++ ref c ++ seq c :=
    BitVec.extractLsb'_append_eq_left
  rw [fields b, ← fields (rb c), withRb_self rfl]

/-- Settles O20: one write, and the three ways the command ends. -/
theorem writeConfigCommand : Obligations.WriteConfigCommand := by
  unfold Obligations.WriteConfigCommand
  intro cfg s out
  refine ⟨raw16_outBytes cfg true .two, fun hr => ?unready, fun f hr h => ?ok, fun e hr h => ?err⟩
  case unready =>
    rw [exec, execWriteConfig, whenReady_unready hr]
    rfl
  case ok =>
    rw [exec, execWriteConfig, whenReady_ready hr, transact_write_ok h, Flow.statusOnly_done, Flow.finish_done,
      respond_exchanged]
    rfl
  case err =>
    rw [exec, execWriteConfig, whenReady_ready hr, transact_write_err h, Flow.statusOnly_done, Flow.finish_done,
      respond_exchangeFailed]
    rfl

/-- Settles O22: the short path is the confirmation read alone; the long path is cut at its first failed exchange. -/
theorem readConfigCommand : Obligations.ReadConfigCommand := by
  unfold Obligations.ReadConfigCommand
  intro s ca out1 out2 out3 failed
  refine ⟨⟨rb_withRb _ _, withRb_extractLsb' _ _⟩, fun hr => ?unready, fun f hr hb h => ?shortOk,
    fun e hr hb h => ?shortErr, fun f g k hr hb h => ?longOk, fun e hr hb h => ?firstErr,
    fun f e hr hb h => ?secondErr, fun f g e hr hb h => ?thirdErr⟩
  case unready =>
    rw [exec, execReadConfig, whenReady_unready hr]
    rfl
  case shortOk =>
    rw [exec, execReadConfig_short hr hb, confirmRead_ok hb h, Flow.finish_done, respond_exchanged]
    rfl
  case shortErr =>
    rw [exec, execReadConfig_short hr hb, confirmRead_err hb h, Flow.finish_done, respond_exchangeFailed]
    rfl
  case longOk =>
    rw [exec, execReadConfig_long_confirm hr hb h,
      confirmRead_ok (by simp) (nextAnswers_exchanged (nextAnswers_exchanged h)), Flow.finish_done,
      respond_exchanged]
    simp only [v_exchanged, p_exchanged, log_exchanged, List.append_assoc]
    rfl
  case firstErr =>
    rw [exec, execReadConfig_long hr hb, onOk_write_err h, Flow.finish_done, respond_exchangeFailed]
    rfl
  case secondErr =>
    rw [exec, execReadConfig_long hr hb, onOk_write_ok h, onOk_write_err (nextAnswers_exchanged h), Flow.finish_done,
      respond_exchangeFailed]
    simp only [log_exchanged, List.append_assoc]
    rfl
  case thirdErr =>
    rw [exec, execReadConfig_long_confirm hr hb h,
      confirmRead_err (by simp) (nextAnswers_exchanged (nextAnswers_exchanged h)), Flow.finish_done,
      respond_exchangeFailed]
    simp only [log_exchanged, List.append_assoc]
    rfl

end Sys2Proof.Machine

/-! ## BULK_READ (spec 42_bulk_read R140 to R142) -/

namespace Sys2Proof.Machine

open Sys2Proof.Config

section
variable {TCfg TErr : Type} {s : State TCfg TErr} {f : InFrame} {frames : List InFrame} {e : TErr} {i n : Nat}
variable {count : BitVec 16} {outs : List Bytes} {rest : List (XferAnswer TErr)}

/-! ### The state after some samples -/

/-- The state after the successful samples `frames` of a BULK_READ that starts at index `i`, the transport's answers to
them taken. -/
def State.sampled (i : Nat) (frames : List InFrame) (s : State TCfg TErr) : State TCfg TErr :=
  bulkState s i frames (afterAnswers (List.replicate frames.length zeroBytes) s).xferAnswers
    (afterAnswers (List.replicate frames.length zeroBytes) s).draws

/-- It is the state with the answers taken, but for what the samples change. -/
theorem sampled_eq : s.sampled i frames = { afterAnswers (List.replicate frames.length zeroBytes) s with
    a := if frames = [] then s.a else s.p
    seqStep := s.seqStep + frames.length
    dst := bulkWrites s.v i frames s.dst
    log := s.log ++ bulkEvents s.v i frames } := by
  rw [afterAnswers_eq]
  rfl

@[simp] theorem log_sampled : (s.sampled i frames).log = s.log ++ bulkEvents s.v i frames := rfl

theorem sampled_nil : s.sampled i [] = s := by
  simp [State.sampled, bulkState, bulkWrites, bulkEvents, afterAnswers]

/-- After the samples the transport answers as if its answers to them alone had been taken. -/
theorem answers_sampled (outs : List Bytes) (frames : List InFrame) (i : Nat) (s : State TCfg TErr) :
    let s' := afterAnswers (List.replicate frames.length zeroBytes) s
    nextAnswers outs (s.sampled i frames) = nextAnswers outs s' ∧
      (afterAnswers outs (s.sampled i frames)).xferAnswers = (afterAnswers outs s').xferAnswers ∧
      (afterAnswers outs (s.sampled i frames)).draws = (afterAnswers outs s').draws :=
  nextAnswers_congr outs rfl rfl

/-- One sample and then more. -/
theorem sampled_cons : (s.sampled i [f]).sampled (i + 1) frames = s.sampled i (f :: frames) := by
  obtain ⟨-, hqueue, hdraws⟩ := answers_sampled (List.replicate frames.length zeroBytes) [f] i s
  rw [State.sampled, hqueue, hdraws]
  exact bulkState_cons ..

/-- The answers to requests that follow the samples. -/
theorem nextAnswers_sampled_of_append
    (h : nextAnswers (List.replicate frames.length zeroBytes ++ outs) s = frames.map InFrame.answer ++ rest) :
    nextAnswers outs (s.sampled i frames) = rest := by
  rw [nextAnswers_append] at h
  exact (answers_sampled outs frames i s).1.trans (List.append_inj h (by simp)).2

/-! ### The loop -/

theorem transact_sample_ok (h : nextAnswers (zeroBytes :: outs) s = f.answer :: rest) :
    transact false zeroConfig false true s = .done (s.exchanged false zeroConfig zeroBytes f.two)
      (transactResponse s.v false true (rbAct s) f.two) :=
  transact_ok (List.cons.inj h).1

theorem transact_sample_err (h : nextAnswers (zeroBytes :: outs) s = .err e :: rest) :
    transact false zeroConfig false true s = .done (s.exchangeFailed zeroBytes e) (.transport e) :=
  transact_err (List.cons.inj h).1

/-- A successful exchange and its DST write make one sample. -/
theorem writeDst_exchanged :
    (s.exchanged false zeroConfig zeroBytes f.two).writeDst i (decodeSample s.v f.two) = s.sampled i [f] := by
  rw [State.writeDst, log_exchanged, List.append_assoc]
  rfl

theorem bulkLoop_succ_ok (h : nextAnswers (zeroBytes :: outs) s = f.answer :: rest) :
    bulkLoop (n + 1) i s = bulkLoop n (i + 1) (s.sampled i [f]) := by
  rw [bulkLoop, transact_sample_ok h, Flow.andThen_done, transactResponse_status, if_pos rfl,
    transactResponse_sample, writeDst_exchanged]

theorem bulkLoop_succ_err (h : nextAnswers (zeroBytes :: outs) s = .err e :: rest) :
    bulkLoop (n + 1) i s = .done (s.exchangeFailed zeroBytes e) (.transport e) := by
  rw [bulkLoop, transact_sample_err h]
  rfl

/-- The loop runs through the exchanges that succeed, whatever comes after them. -/
theorem bulkLoop_sampled
    (h : nextAnswers (List.replicate frames.length zeroBytes ++ outs) s = frames.map InFrame.answer ++ rest) :
    bulkLoop (frames.length + n) i s = bulkLoop n (i + frames.length) (s.sampled i frames) := by
  induction frames generalizing i s with
  | nil => rw [sampled_nil, List.length_nil, Nat.zero_add, Nat.add_zero]
  | cons f frames ih =>
    have hrest : nextAnswers (List.replicate frames.length zeroBytes ++ outs) (s.sampled i [f]) =
        frames.map InFrame.answer ++ rest := nextAnswers_sampled_of_append (frames := [f]) h
    calc bulkLoop (frames.length + 1 + n) i s
        = bulkLoop (frames.length + n + 1) i s := by rw [Nat.add_right_comm]
      _ = bulkLoop (frames.length + n) (i + 1) (s.sampled i [f]) := bulkLoop_succ_ok h
      _ = bulkLoop n (i + 1 + frames.length) ((s.sampled i [f]).sampled (i + 1) frames) := ih hrest
      _ = bulkLoop n (i + (frames.length + 1)) (s.sampled i (f :: frames)) := by
        rw [sampled_cons, Nat.add_right_comm, Nat.add_assoc]

/-! ### The three ways the command returns -/

theorem execBulkRead_refused {dv : Bool} (h : s.ready = false ∨ dv = false) :
    execBulkRead dv count s = .next (s.respond .invalid) := by
  cases hr : s.ready with
  | false => rw [execBulkRead, whenReady_unready hr, Flow.finish_done]
  | true =>
    obtain rfl : dv = false := h.resolve_left (by simp [hr])
    rw [execBulkRead, whenReady_ready hr, if_neg Bool.false_ne_true, Flow.finish_done]

theorem execBulkRead_dest (hr : s.ready = true) :
    execBulkRead true count s = (bulkLoop count.toNat 0 s).finish := by
  rw [execBulkRead, whenReady_ready hr, if_pos rfl]

theorem execBulkRead_ok (hr : s.ready = true) (hn : frames.length = count.toNat)
    (h : nextAnswers (List.replicate frames.length zeroBytes) s = frames.map InFrame.answer) :
    execBulkRead true count s = .next ((s.sampled 0 frames).respond .okPlain) := by
  have hloop : bulkLoop (frames.length + 0) 0 s = bulkLoop 0 (0 + frames.length) (s.sampled 0 frames) :=
    bulkLoop_sampled (outs := []) (rest := []) (by simpa using h)
  rw [execBulkRead_dest hr, ← hn, ← Nat.add_zero frames.length, hloop, bulkLoop, Flow.finish_done]

/-- The exchange with index `frames.length` fails. -/
theorem execBulkRead_err (hr : s.ready = true) (hn : frames.length < count.toNat)
    (h : nextAnswers (List.replicate frames.length zeroBytes ++ [zeroBytes]) s =
      frames.map InFrame.answer ++ [.err e]) :
    execBulkRead true count s =
      .next (((s.sampled 0 frames).exchangeFailed zeroBytes e).respond (.transport e)) := by
  obtain ⟨n, hcount⟩ := Nat.exists_eq_add_of_lt hn
  rw [execBulkRead_dest hr, hcount, Nat.add_assoc, bulkLoop_sampled h,
    bulkLoop_succ_err (nextAnswers_sampled_of_append h), Flow.finish_done]

/-! ### The state it returns in -/

theorem respond_sampled (r : Response TErr) :
    (s.sampled i frames).respond r = { afterAnswers (List.replicate frames.length zeroBytes) s with
      a := if frames = [] then s.a else s.p
      seqStep := 0
      dst := bulkWrites s.v i frames s.dst
      log := s.log ++ bulkEvents s.v i frames ++ [.resp r] } := by
  rw [sampled_eq]
  rfl

theorem respond_exchangeFailed_sampled (r : Response TErr) :
    ((s.sampled i frames).exchangeFailed zeroBytes e).respond r =
      { afterAnswers (List.replicate (frames.length + 1) zeroBytes) s with
        a := if frames = [] then s.a else s.p
        seqStep := 0
        dst := bulkWrites s.v i frames s.dst
        log := s.log ++ bulkEvents s.v i frames ++ [.xfer zeroBytes (.err e), .resp r] } := by
  rw [respond_exchangeFailed, sampled_eq, List.replicate_succ', afterAnswers_append]
  rfl

/-- Where the writes begin at index 0, DST reads as `bulkDst` says. -/
theorem dstRead_bulkWrites_zero (v : BitVec 2) (frames : List InFrame) (d : Dst) (j : Nat) :
    dstRead (bulkWrites v 0 frames d) j = bulkDst v frames d j := by
  rw [dstRead_bulkWrites, if_neg (Nat.not_lt_zero j)]
  rfl

/-- No sample was asked for exactly where none was taken. -/
theorem count_eq_zero_iff (hn : frames.length = count.toNat) : count = 0#16 ↔ frames = [] := by
  rw [← List.length_eq_zero_iff, hn, ← BitVec.toNat_inj]
  rfl

end

/-- Settles O24: the loop runs through its successful exchanges by `bulkLoop_sampled`; then it is done, or the next
exchange fails. -/
theorem bulkReadCommand : Obligations.BulkReadCommand := by
  unfold Obligations.BulkReadCommand
  intro count s
  refine ⟨fun dv h => execBulkRead_refused h, fun frames hr hn h => ?complete, fun frames e hr hn h => ?failed⟩
  case complete =>
    refine ⟨bulkWrites s.v 0 frames s.dst, ?_, dstRead_bulkWrites_zero s.v frames s.dst⟩
    rw [← hn] at h
    simp only [count_eq_zero_iff hn, ← hn]
    rw [exec, execBulkRead_ok hr hn h, respond_sampled]
    rfl
  case failed =>
    refine ⟨bulkWrites s.v 0 frames s.dst, ?_, dstRead_bulkWrites_zero s.v frames s.dst⟩
    rw [exec, execBulkRead_err hr hn (List.replicate_succ' ▸ h), respond_exchangeFailed_sampled]
    rfl

end Sys2Proof.Machine

/-! ## INIT and TEARDOWN (spec 43_lifecycle R150 to R153) -/

namespace Sys2Proof.Machine

open Sys2Proof.Config

section
variable {TCfg TErr : Type} {s : State TCfg TErr} {vtag : BitVec 8} {cfg : RegisterConfig} {tcfg : TCfg} {e : TErr}
variable {f g : InFrame} {outs : List Bytes} {rest : List (XferAnswer TErr)}

@[simp] theorem log_exchangeFailed (out : Bytes) : (s.exchangeFailed out e).log = s.log ++ [.xfer out (.err e)] := rfl

/-! ### A part that holds the transport (R150 steps 5 and 6, R151) -/

section
variable {cwe : Bool} {c : RegisterConfig} {k : State TCfg TErr → Part TCfg TErr}

/-- After a successful exchange the next part begins in the state the exchange left. -/
theorem orRelease_transact_ok (h : nextAnswers (outBytes cwe c .two :: outs) s = f.answer :: rest) :
    orRelease (transact cwe c false false s) k = k (s.exchanged cwe c (outBytes cwe c .two) f.two) := by
  have hans : (xferAnswer (transactOut cwe c false s) s).1 = f.answer := (List.cons.inj h).1
  rw [transact_ok hans, orRelease_done, transactResponse_status, if_pos rfl]
  rfl

/-- After a failed exchange the transport is released, and the error returned unchanged. -/
theorem orRelease_transact_err (h : nextAnswers (outBytes cwe c .two :: outs) s = .err e :: rest) :
    orRelease (transact cwe c false false s) k =
      .done (release (s.exchangeFailed (outBytes cwe c .two) e)) (.transport e) := by
  have hans : (xferAnswer (transactOut cwe c false s) s).1 = .err e := (List.cons.inj h).1
  rw [transact_err hans]
  rfl

end

/-! ### INIT's transfers (R150 steps 5 to 7) -/

/-- The state after INIT's write of CFG. -/
def State.initWritten (cfg : RegisterConfig) (f : InFrame) (s : State TCfg TErr) : State TCfg TErr :=
  s.exchanged true cfg (outBytes true cfg .two) f.two

@[simp] theorem log_initWritten :
    (s.initWritten cfg f).log = s.log ++ [.xfer (outBytes true cfg .two) (.ok f.two)] := rfl

theorem initTransfers_write_err (h : nextAnswers [outBytes true cfg .two] s = [.err e]) :
    initTransfers cfg s = .done (release (s.exchangeFailed (outBytes true cfg .two) e)) (.transport e) :=
  orRelease_transact_err h

/-- After the write of CFG comes the conversion-only exchange. -/
theorem initTransfers_written (h : nextAnswers (outBytes true cfg .two :: outs) s = f.answer :: rest) :
    initTransfers cfg s = orRelease (transact false zeroConfig false false (s.initWritten cfg f)) fun t =>
      .done (t.setReady true) .okPlain :=
  orRelease_transact_ok h

theorem initTransfers_ok (h : nextAnswers [outBytes true cfg .two, zeroBytes] s = [f.answer, g.answer]) :
    initTransfers cfg s =
      .done (((s.initWritten cfg f).exchanged false zeroConfig zeroBytes g.two).setReady true) .okPlain :=
  (initTransfers_written h).trans (orRelease_transact_ok (nextAnswers_exchanged h))

theorem initTransfers_conv_err (h : nextAnswers [outBytes true cfg .two, zeroBytes] s = [f.answer, .err e]) :
    initTransfers cfg s = .done (release ((s.initWritten cfg f).exchangeFailed zeroBytes e)) (.transport e) :=
  (initTransfers_written h).trans (orRelease_transact_err (nextAnswers_exchanged h))

/-! ### INIT's checks and its Acquire (R150 steps 1 to 4, R152) -/

theorem execInit_unrecognized (hv : 3 < vtag.toNat) : execInit vtag cfg tcfg s = .next (s.respond .invalid) := by
  rw [execInit, if_pos hv, Flow.finish_done]

theorem execInit_inUse (hv : vtag.toNat ≤ 3) (hr : s.ready = true) :
    execInit vtag cfg tcfg s = .next (s.respond .allocation) := by
  rw [execInit, if_neg (Nat.not_lt.mpr hv), if_pos hr, Flow.finish_done]

/-- Both checks passed, what is left is steps 3 to 7. -/
theorem execInit_allocated (hv : vtag.toNat ≤ 3) (hr : s.ready = false) :
    execInit vtag cfg tcfg s = (initAllocated vtag cfg tcfg s).finish := by
  rw [execInit, if_neg (Nat.not_lt.mpr hv), if_neg (by simp [hr])]

/-- The state after INIT's allocation and an Acquire that answered `r`. -/
def State.initAcquired (vtag : BitVec 8) (tcfg : TCfg) (r : AcqResult TErr) (s : State TCfg TErr) :
    State TCfg TErr :=
  ((acqAnswer tcfg s).2.allocate vtag).emit (.acq tcfg r)

@[simp] theorem log_initAcquired (r : AcqResult TErr) :
    (s.initAcquired vtag tcfg r).log = s.log ++ [.acq tcfg r] := rfl

/-- The allocation and the Acquire take no answer to an exchange. -/
theorem nextAnswers_initAcquired (r : AcqResult TErr) :
    nextAnswers outs (s.initAcquired vtag tcfg r) = nextAnswers outs (acqAnswer tcfg s).2 := by
  refine (nextAnswers_congr outs ?queue ?counter).1
  case queue => rfl
  case counter => rfl

theorem execInit_acquired (hr : s.ready = false) (hv : vtag.toNat ≤ 3) (hacq : (acqAnswer tcfg s).1 = .ok) :
    execInit vtag cfg tcfg s = (initTransfers cfg (s.initAcquired vtag tcfg .ok)).finish := by
  have hans : (acqAnswer tcfg (s.allocate vtag)).1 = .ok := hacq
  rw [execInit_allocated hv hr, initAllocated, acquire_ok hans]
  rfl

theorem execInit_acquire_err (hr : s.ready = false) (hv : vtag.toNat ≤ 3)
    (hacq : (acqAnswer tcfg s).1 = .err e) :
    execInit vtag cfg tcfg s = .next ((s.initAcquired vtag tcfg (.err e)).respond (.transport e)) := by
  have hans : (acqAnswer tcfg (s.allocate vtag)).1 = .err e := hacq
  rw [execInit_allocated hv hr, initAllocated, acquire_err hans]
  rfl

/-! ### TEARDOWN (R153) -/

theorem execTeardown_ready (hr : s.ready = true) :
    execTeardown s = .next (((release s).setReady false).respond .okPlain) := by
  rw [execTeardown, whenReady_ready hr, Flow.finish_done]

theorem execTeardown_unready (hr : s.ready = false) : execTeardown s = .next (s.respond .invalid) := by
  rw [execTeardown, whenReady_unready hr, Flow.finish_done]

end

/-- Settles O26: the two checks, then the Acquire, then the transfers, cut at the first that fails. -/
theorem initCommand : Obligations.InitCommand := by
  unfold Obligations.InitCommand
  intro vtag cfg tcfg s s1 out failed
  refine ⟨fun hv => execInit_unrecognized hv, fun hv hr => execInit_inUse hv hr,
    fun f g hr hv hacq h => ?ok, fun e hr hv hacq => ?acquireErr, fun e hr hv hacq h => ?writeErr,
    fun f e hr hv hacq h => ?convErr⟩
  case ok =>
    rw [exec, execInit_acquired hr hv hacq, initTransfers_ok ((nextAnswers_initAcquired _).trans h), Flow.finish_done,
      State.respond]
    simp only [State.setReady_log, log_exchanged, log_initWritten, log_initAcquired, List.append_assoc]
    rfl
  case acquireErr =>
    rw [exec, execInit_acquire_err hr hv hacq, State.respond, log_initAcquired, List.append_assoc]
    rfl
  case writeErr =>
    rw [exec, execInit_acquired hr hv hacq, initTransfers_write_err ((nextAnswers_initAcquired _).trans h),
      Flow.finish_done, State.respond]
    simp only [release_log, log_exchangeFailed, log_initAcquired, List.append_assoc]
    rfl
  case convErr =>
    rw [exec, execInit_acquired hr hv hacq, initTransfers_conv_err ((nextAnswers_initAcquired _).trans h),
      Flow.finish_done, State.respond]
    simp only [release_log, log_exchangeFailed, log_initWritten, log_initAcquired, List.append_assoc]
    rfl

/-- Settles O28: the release and READY cleared, or the refusal. -/
theorem teardownReleases : Obligations.TeardownReleases := by
  unfold Obligations.TeardownReleases
  refine fun s => ⟨fun hr => ?ready, execTeardown_unready⟩
  rw [exec, execTeardown_ready hr, State.respond, State.setReady_log, release_log, List.append_assoc]
  rfl

end Sys2Proof.Machine

/-! ## The three error kinds (spec 60_exceptions R160 to R163)

Every command that responds does so in one of four ways: it is refused as invalid, refused because the handle is in use,
answered OK, or ended by a transport error. `Answers` says what each way logs and returns; the rules of R161 to R163 are
read off it. -/

namespace Sys2Proof.Machine

open Sys2Proof.Config

section
variable {TCfg TErr : Type} {s t : State TCfg TErr} {i : Instr TCfg} {evs : List (Event TCfg TErr)} {r : Response TErr}
variable {e : TErr}

/-! ### The commands that are refused as invalid (R161) -/

/-- The causes of INVALID_ARGUMENT that a decoded command may have: no handle, an unrecognized tag, no destination. -/
def InvalidCommand (s : State TCfg TErr) (i : Instr TCfg) : Prop :=
  (s.ready = false ∧ ∀ vtag cfg tcfg, i ≠ .init vtag cfg tcfg) ∨
  (∃ vtag cfg tcfg, i = .init vtag cfg tcfg ∧ 3 < vtag.toNat) ∨
  ∃ count, i = .bulkRead false count

/-- While READY = 1, of the commands other than INIT only a BULK_READ without a destination is invalid. -/
theorem not_invalidCommand_of_ready (hr : s.ready = true) (hinit : ∀ vtag cfg tcfg, i ≠ .init vtag cfg tcfg)
    (hbulk : ∀ count, i ≠ .bulkRead false count) : ¬ InvalidCommand s i := by
  rintro (⟨hr', -⟩ | ⟨vtag, cfg, tcfg, hi, -⟩ | ⟨count, hi⟩)
  · cases hr.symm.trans hr'
  · exact hinit vtag cfg tcfg hi
  · exact hbulk count hi

/-- An INIT with a recognized tag is not invalid, whatever READY is. -/
theorem not_invalidCommand_init {vtag : BitVec 8} {cfg : RegisterConfig} {tcfg : TCfg} (hv : vtag.toNat ≤ 3) :
    ¬ InvalidCommand s (.init vtag cfg tcfg) := by
  rintro (⟨-, hi⟩ | ⟨_, _, _, hi, hv'⟩ | ⟨_, hi⟩)
  · exact hi vtag cfg tcfg rfl
  · cases hi
    exact Nat.not_lt.mpr hv hv'
  · cases hi

/-! ### Events that end in a transport error (R163) -/

/-- The events end in a failed request, whose error is `e`, with nothing after it but perhaps a release; no request failed
before it. -/
inductive FailsWith (e : TErr) : List (Event TCfg TErr) → Prop
  | last {ev : Event TCfg TErr} (h : ev.error? = some e) : FailsWith e [ev]
  | released {ev : Event TCfg TErr} (h : ev.error? = some e) : FailsWith e [ev, .rel]
  | cons {x : Event TCfg TErr} {evs : List (Event TCfg TErr)} (hx : x.error? = none) (h : FailsWith e evs) :
    FailsWith e (x :: evs)

/-- Events that did not fail may come before. -/
theorem FailsWith.append_left {before : List (Event TCfg TErr)} (hb : ∀ x ∈ before, x.error? = none)
    (h : FailsWith e evs) : FailsWith e (before ++ evs) := by
  induction before with
  | nil => exact h
  | cons x before ih =>
    obtain ⟨hx, hrest⟩ := List.forall_mem_cons.mp hb
    exact .cons hx (ih hrest)

/-- The failed request splits the events. -/
theorem FailsWith.exists_split (h : FailsWith e evs) : ∃ before ev after, evs = before ++ ev :: after ∧
    (∀ x ∈ before, x.error? = none) ∧ ev.error? = some e ∧ (after = [] ∨ after = [.rel]) := by
  induction h with
  | @last ev h => exact ⟨[], ev, [], rfl, List.forall_mem_nil _, h, .inl rfl⟩
  | @released ev h => exact ⟨[], ev, [.rel], rfl, List.forall_mem_nil _, h, .inr rfl⟩
  | @cons x evs hx h ih =>
    obtain ⟨before, ev, after, rfl, hbefore, hev, hafter⟩ := ih
    exact ⟨x :: before, ev, after, rfl, List.forall_mem_cons.mpr ⟨hx, hbefore⟩, hev, hafter⟩

theorem bulkEvents_error? (v : BitVec 2) (k : Nat) (frames : List InFrame) :
    ∀ x ∈ (bulkEvents v k frames : List (Event TCfg TErr)), x.error? = none :=
  List.findSome?_eq_none_iff.mp (bulkEvents_findError v k frames)

/-! ### The four ways to respond -/

/-- The command `i`, begun in `s`, has logged `evs`, responded with `r` and left `t`: refused as invalid, refused because
the handle is in use, OK with no failed request, or ended by the error of a failed request. -/
inductive Answers (s : State TCfg TErr) :
    Instr TCfg → State TCfg TErr → List (Event TCfg TErr) → Response TErr → Prop
  | invalid {i : Instr TCfg} (hi : InvalidCommand s i) : Answers s i (s.respond .invalid) [] .invalid
  | inUse {vtag : BitVec 8} {cfg : RegisterConfig} {tcfg : TCfg} (hv : vtag.toNat ≤ 3) (hr : s.ready = true) :
    Answers s (.init vtag cfg tcfg) (s.respond .allocation) [] .allocation
  | ok {i : Instr TCfg} {t : State TCfg TErr} {evs : List (Event TCfg TErr)} {r : Response TErr}
    (hi : ¬ InvalidCommand s i) (hst : r.status = .ok) (herr : r.err = none) (hevs : ∀ x ∈ evs, x.error? = none) :
    Answers s i t evs r
  | failed {i : Instr TCfg} {t : State TCfg TErr} {evs : List (Event TCfg TErr)} {e : TErr}
    (hi : ¬ InvalidCommand s i) (hf : FailsWith e evs) : Answers s i t evs (.transport e)

/-- A command that does not wait has responded in one of the four ways, whatever the transport answers. -/
theorem ExecTo.exists_answers (h : ExecTo s i t) (hw : t.waiting = none) :
    ∃ evs r, t.log = s.log ++ evs ++ [.resp r] ∧ Answers s i t evs r := by
  cases h with
  -- refused before any request
  | uninit _ hr hi => exact ⟨[], _, by simp, .invalid (.inl ⟨hr, hi⟩)⟩
  | initTag vtag cfg tcfg hv => exact ⟨[], _, by simp, .invalid (.inr (.inl ⟨vtag, cfg, tcfg, rfl, hv⟩))⟩
  | bulkNull count => exact ⟨[], _, by simp, .invalid (.inr (.inr ⟨count, rfl⟩))⟩
  | initInUse _ _ _ hv hr => exact ⟨[], _, by simp, .inUse hv hr⟩
  -- answered OK
  | transactOk | writeOk | shortOk | longOk | teardown =>
    exact ⟨_, _, rfl, .ok (not_invalidCommand_of_ready ‹_› nofun nofun) rfl rfl (by simp)⟩
  | initOk _ _ _ _ _ _ _ _ hv => exact ⟨_, _, rfl, .ok (not_invalidCommand_init hv) rfl rfl (by simp)⟩
  | bulkOk _ frames _ _ hr =>
    exact ⟨_, _, rfl, .ok (not_invalidCommand_of_ready hr nofun nofun) rfl rfl (bulkEvents_error? s.v 0 frames)⟩
  -- ended by the first request
  | transactErr | writeErr | shortErr | longAErr =>
    exact ⟨_, _, rfl, .failed (not_invalidCommand_of_ready ‹_› nofun nofun) (.last rfl)⟩
  | initAcqErr _ _ _ _ _ _ hv => exact ⟨_, _, rfl, .failed (not_invalidCommand_init hv) (.last rfl)⟩
  -- ended by a later one
  | longBErr _ _ _ _ hr =>
    exact ⟨_, _, rfl, .failed (not_invalidCommand_of_ready hr nofun nofun) (.cons rfl (.last rfl))⟩
  | longCErr _ _ _ _ _ hr =>
    exact ⟨_, _, rfl, .failed (not_invalidCommand_of_ready hr nofun nofun) (.cons rfl (.cons rfl (.last rfl)))⟩
  | bulkErr _ frames _ _ e hr =>
    refine ⟨bulkEvents s.v 0 frames ++ [.xfer zeroBytes (.err e)], .transport e, ?log,
      .failed (not_invalidCommand_of_ready hr nofun nofun) (.append_left (bulkEvents_error? s.v 0 frames) (.last rfl))⟩
    simp [bulkState]
  -- ended while it held the transport, which it released
  | initWriteErr _ _ _ _ _ _ _ hv =>
    exact ⟨_, _, rfl, .failed (not_invalidCommand_init hv) (.cons rfl (.released rfl))⟩
  | initConvErr _ _ _ _ _ _ _ _ hv =>
    exact ⟨_, _, rfl, .failed (not_invalidCommand_init hv) (.cons rfl (.cons rfl (.released rfl)))⟩
  -- the engine waits
  | transactHung | writeHung | shortHung | longAHung | longBHung | longCHung | bulkHung | initAcqHung | initWriteHung
  | initConvHung => simp at hw

/-! ### What the status says of the answer -/

theorem Answers.status_eq_invalidArgument_iff (h : Answers s i t evs r) :
    r.status = .invalidArgument ↔ InvalidCommand s i := by
  cases h with
  | invalid hi => exact iff_of_true rfl hi
  | inUse hv => exact iff_of_false nofun (not_invalidCommand_init hv)
  | ok hi hst => exact iff_of_false (by simp [hst]) hi
  | failed hi => exact iff_of_false nofun hi

theorem Answers.eq_of_status_eq_invalidArgument (h : Answers s i t evs r) (hst : r.status = .invalidArgument) :
    r = .invalid ∧ t = s.respond .invalid := by
  cases h with
  | invalid => exact ⟨rfl, rfl⟩
  | inUse | failed => cases hst
  | ok _ hok => cases hok.symm.trans hst

theorem Answers.eq_of_status_eq_allocationFailure (h : Answers s i t evs r) (hst : r.status = .allocationFailure) :
    (∃ vtag cfg tcfg, i = .init vtag cfg tcfg ∧ vtag.toNat ≤ 3) ∧ s.ready = true ∧ evs = [] ∧
      r = .allocation ∧ t = s.respond .allocation := by
  cases h with
  | inUse hv hr => exact ⟨⟨_, _, _, rfl, hv⟩, hr, rfl, rfl, rfl⟩
  | invalid | failed => cases hst
  | ok _ hok => cases hok.symm.trans hst

theorem Answers.exists_failsWith (h : Answers s i t evs r) (hst : r.status = .transportFailure) :
    ∃ e, r.err = some e ∧ FailsWith e evs := by
  cases h with
  | @failed _ _ _ e _ hf => exact ⟨e, rfl, hf⟩
  | invalid | inUse => cases hst
  | ok _ hok => cases hok.symm.trans hst

theorem Answers.no_error (h : Answers s i t evs r) (hst : r.status ≠ .transportFailure) :
    r.err = none ∧ ∀ x ∈ evs, x.error? = none := by
  cases h with
  | invalid | inUse => exact ⟨rfl, List.forall_mem_nil _⟩
  | ok _ _ herr hevs => exact ⟨herr, hevs⟩
  | failed => exact absurd rfl hst

end

/-! ### The same of a command and of a step -/

section
variable {s t : State} {i : Instr} {evs : List Event} {r : Response}

/-- A command that came to an idle engine and delivered a response answers in one of the four ways. -/
theorem exec_answers (hs : s.waiting = none) (h : exec i s = .next t) (hlog : t.log = s.log ++ evs ++ [.resp r]) :
    Answers s i t evs r := by
  have hw : t.waiting = none := (exec_cases h).commandEnds.waiting_eq_none hs hlog
  obtain ⟨evs', r', hlog', hans⟩ := (exec_cases h).exists_answers hw
  obtain ⟨rfl, rfl⟩ : evs' = evs ∧ r' = r := by simpa using hlog'.symm.trans hlog
  exact hans

/-- A step on a word that decodes takes it from the port and runs its command. -/
theorem step_of_decode_eq_ok {c : Command} {rest : List Input} (hw : s.waiting = none)
    (hp : s.port = .command c :: rest) (hd : decode c.word c.tcfg = .ok i) : step s = exec i (s.accept rest) := by
  simp only [step, stepWith, nextInput_of_port hw hp, hd]

end

/-- Settles O29: an illegal word is answered at once; of a command that decodes, `Answers` says when it is invalid and
that it then had no effect. -/
theorem invalidArgumentHasFourCauses : Obligations.InvalidArgumentHasFourCauses := by
  unfold Obligations.InvalidArgumentHasFourCauses
  intro s t c rest evs r hs hp h hlog
  cases hd : decode c.word c.tcfg with
  | error e =>
    obtain rfl : (s.accept rest).respond .invalid = t :=
      Host.Outcome.next.inj ((step_of_decode_eq_error hs hp hd).symm.trans h)
    obtain rfl : .invalid = r := respond_log_inj hlog
    exact ⟨iff_of_true rfl (.inl ⟨e, rfl⟩), fun _ => ⟨rfl, rfl⟩⟩
  | ok i =>
    have hans : Answers (s.accept rest) i t evs r :=
      exec_answers hs ((step_of_decode_eq_ok hs hp hd).symm.trans h) hlog
    constructor
    · refine hans.status_eq_invalidArgument_iff.trans ⟨fun hi => .inr ⟨i, rfl, hi⟩, ?_⟩
      rintro (⟨_, ⟨⟩⟩ | ⟨_, ⟨⟩, hi⟩)
      exact hi
    · intro hst
      obtain ⟨rfl, rfl⟩ := hans.eq_of_status_eq_invalidArgument hst
      exact ⟨rfl, rfl⟩

/-- Settles O39: a TRANSPORT_FAILURE is the error of the one failed request, and no other answer logged a failure. -/
theorem transportErrorIsPassedOnVerbatim : Obligations.TransportErrorIsPassedOnVerbatim := by
  unfold Obligations.TransportErrorIsPassedOnVerbatim
  intro i s t evs r hs h hlog
  have hans : Answers s i t evs r := exec_answers hs h hlog
  refine ⟨fun hst => ?_, hans.no_error⟩
  obtain ⟨e, herr, hf⟩ := hans.exists_failsWith hst
  obtain ⟨before, ev, after, hsplit, hbefore, hev, hafter⟩ := hf.exists_split
  exact ⟨before, after, ev, e, hsplit, hbefore, hev, herr, hafter⟩

/-- Settles O40: `Answers` gives the status to the one refusal of `execInit_inUse`, which every such INIT meets. -/
theorem allocationFailureHasOneCause : Obligations.AllocationFailureHasOneCause := by
  unfold Obligations.AllocationFailureHasOneCause
  refine ⟨fun i s t evs r hs h hlog hst => ?_, fun _ _ _ _ hv hr => execInit_inUse hv hr⟩
  obtain ⟨hi, hr, hevs, rfl, rfl⟩ := (exec_answers hs h hlog).eq_of_status_eq_allocationFailure hst
  exact ⟨hi, hr, hevs, rfl⟩

end Sys2Proof.Machine

/-! ## Reset (spec 70_reset_and_hazards R190) -/

namespace Sys2Proof.Machine

section
variable {TCfg TErr : Type} {s t : State TCfg TErr} {evs : List (Event TCfg TErr)}

/-- With nothing at the port there is no input to take, whether the engine waits or not. -/
theorem nextInput_of_port_eq_nil (hp : s.port = []) : nextInput s = none := by
  cases hw : s.waiting <;> simp [nextInput, hw, hp]

/-- Events that are none of the transport's add nothing to the trace. -/
theorem trace_eq_of_log_append (hlog : t.log = s.log ++ evs) (hevs : ∀ e ∈ evs, e.isTransport = false) :
    t.trace = s.trace := by
  have hnil : evs.filter Event.isTransport = [] := List.filter_eq_nil_iff.mpr (by simpa using hevs)
  simp [State.trace, traceOf, hlog, hnil]

/-- A hardware reset causes no transport event. -/
@[simp] theorem State.hardwareReset_trace (s : State TCfg TErr) : s.hardwareReset.trace = s.trace :=
  trace_eq_of_log_append s.hardwareReset_log (by simp)

/-- A hardware reset delivers no response. -/
@[simp] theorem State.hardwareReset_responses (s : State TCfg TErr) : s.hardwareReset.responses = s.responses :=
  responses_eq_of_log_append s.hardwareReset_log (by simp)

end

/-- With nothing at the port a step changes nothing. -/
theorem step_of_port_eq_nil {s : State} (hp : s.port = []) : step s = .next s := by
  simp only [step, stepWith, nextInput_of_port_eq_nil hp]

/-- A step of an idle engine with a hardware reset at its port takes it from there and resets the engine. -/
theorem step_of_port_eq_reset {s : State} {rest : List Input} (hw : s.waiting = none) (hp : s.port = .reset :: rest) :
    step s = .next (s.accept rest).hardwareReset := by
  simp only [step, stepWith, nextInput_of_port hw hp]

/-- Settles O16: the reset state has nothing at its port, so a step keeps it; the step that takes a hardware reset goes
to `State.hardwareReset`, which clears the registers and logs only its own marker. -/
theorem hardwareResetLeavesUninit : Obligations.HardwareResetLeavesUninit := by
  unfold Obligations.HardwareResetLeavesUninit
  refine ⟨⟨rfl, rfl, rfl, rfl, rfl, step_of_port_eq_nil rfl⟩, fun s rest hw hp => ?_⟩
  have htrace : (s.accept rest).hardwareReset.trace = s.trace := State.hardwareReset_trace _
  have hresp : (s.accept rest).hardwareReset.responses = s.responses := State.hardwareReset_responses _
  exact ⟨_, step_of_port_eq_reset hw hp, rfl, rfl, rfl, rfl, rfl, hw, htrace, hresp, rfl, rfl, rfl, rfl, rfl⟩

end Sys2Proof.Machine

/-! ## Decoding and encoding are inverse (spec 30_encoding R70 to R87) -/

namespace Sys2Proof

/-! ### The word of an instruction

Its row of the opcode table says which opcode it has and that the format's zero bits are 0; its operands stand where the
format puts them. -/

section
variable (cwe wc ws dv : Bool) (cfg : RegisterConfig) (count : BitVec 16) (vtag : BitVec 8) (tcfg : Config.TCfg)

theorem opcode_encodeWord_transact :
    opField (encodeWord (.transact cwe wc ws cfg : Instr)) = 0#4 ∧
      (encodeWord (.transact cwe wc ws cfg : Instr)).extractLsb' 13 12 = 0#12 :=
  (and_rowTransact _).mp (beq_iff_eq.mp (Laws.Encoding.transact cwe wc ws cfg))

theorem opcode_encodeWord_writeConfig :
    opField (encodeWord (.writeConfig cfg : Instr)) = 1#4 ∧
      (encodeWord (.writeConfig cfg : Instr)).extractLsb' 13 15 = 0#15 :=
  (and_rowWriteConfig _).mp (beq_iff_eq.mp (Laws.Encoding.writeConfig cfg))

theorem opcode_encodeWord_bulkRead :
    opField (encodeWord (.bulkRead dv count : Instr)) = 3#4 ∧
      (encodeWord (.bulkRead dv count : Instr)).extractLsb' 16 11 = 0#11 :=
  (and_rowBulkRead _).mp (beq_iff_eq.mp (Laws.Encoding.bulkRead dv count))

theorem opcode_encodeWord_init :
    opField (encodeWord (.init vtag cfg tcfg)) = 4#4 ∧ (encodeWord (.init vtag cfg tcfg)).extractLsb' 13 7 = 0#7 :=
  (and_rowInit _).mp (beq_iff_eq.mp (Laws.Encoding.init vtag cfg tcfg))

theorem flags_encodeWord_transact :
    (encodeWord (.transact cwe wc ws cfg : Instr)).getLsbD 27 = cwe ∧
      (encodeWord (.transact cwe wc ws cfg : Instr)).getLsbD 26 = wc ∧
      (encodeWord (.transact cwe wc ws cfg : Instr)).getLsbD 25 = ws := by
  simp only [encodeWord, BitVec.getLsbD_append]
  simp

theorem cfgField_encodeWord_transact : cfgField (encodeWord (.transact cwe wc ws cfg : Instr)) = cfg :=
  BitVec.extractLsb'_append_eq_right

theorem cfgField_encodeWord_writeConfig : cfgField (encodeWord (.writeConfig cfg : Instr)) = cfg :=
  BitVec.extractLsb'_append_eq_right

theorem dv_encodeWord_bulkRead : (encodeWord (.bulkRead dv count : Instr)).getLsbD 27 = dv := by
  simp only [encodeWord, BitVec.getLsbD_append]
  simp

theorem count_encodeWord_bulkRead : (encodeWord (.bulkRead dv count : Instr)).extractLsb' 0 16 = count :=
  BitVec.extractLsb'_append_eq_right

theorem vtag_encodeWord_init : (encodeWord (.init vtag cfg tcfg)).extractLsb' 20 8 = vtag :=
  calc (0x4#4 ++ vtag ++ 0#7 ++ cfg).extractLsb' 20 8
      = (0x4#4 ++ vtag ++ 0#7).extractLsb' 7 8 := BitVec.extractLsb'_append_eq_of_le (by decide)
    _ = (0x4#4 ++ vtag).extractLsb' 0 8 := BitVec.extractLsb'_append_eq_of_le (by decide)
    _ = vtag := BitVec.extractLsb'_append_eq_right

theorem cfgField_encodeWord_init : cfgField (encodeWord (.init vtag cfg tcfg)) = cfg :=
  BitVec.extractLsb'_append_eq_right

end

/-- Settles O10: the encoded word has its format's opcode and zero bits, so by `decode_eq_ok_iff` the decoder reads the
operands from their places. -/
theorem decodeEncode : Obligations.DecodeEncode := by
  unfold Obligations.DecodeEncode
  intro i
  rw [decode_eq_ok_iff]
  cases i with
  | transact cwe wc ws cfg =>
    obtain ⟨hcwe, hwc, hws⟩ := flags_encodeWord_transact cwe wc ws cfg
    refine .inl ⟨opcode_encodeWord_transact cwe wc ws cfg, ?_⟩
    rw [encode, hcwe, hwc, hws, cfgField_encodeWord_transact]
  | writeConfig cfg =>
    refine .inr (.inl ⟨opcode_encodeWord_writeConfig cfg, ?_⟩)
    rw [encode, cfgField_encodeWord_writeConfig]
  | readConfig => exact .inr (.inr (.inl ⟨by decide, rfl⟩))
  | bulkRead dv count =>
    refine .inr (.inr (.inr (.inl ⟨opcode_encodeWord_bulkRead dv count, ?_⟩)))
    rw [encode, dv_encodeWord_bulkRead, count_encodeWord_bulkRead]
  | init vtag cfg tcfg =>
    refine .inr (.inr (.inr (.inr (.inl ⟨opcode_encodeWord_init cfg vtag tcfg, ?_⟩))))
    rw [encode, vtag_encodeWord_init, cfgField_encodeWord_init, encodeTcfg]
  | teardown => exact .inr (.inr (.inr (.inr (.inr ⟨by decide, rfl⟩))))

/-! ### A word put together from its fields

Slices that meet make one slice, so a word is its opcode, its operands and its format's zero bits, one after another. -/

section
variable (w : CommandWord)

/-- A bit as a slice. -/
theorem ofBool_getLsbD (k : Nat) : BitVec.ofBool (w.getLsbD k) = w.extractLsb' k 1 := by
  apply BitVec.eq_of_getLsbD_eq
  intro j hj
  obtain rfl : j = 0 := by omega
  simp

variable {w}

theorem encodeWord_transact_fields (hop : opField w = 0#4) (hz : w.extractLsb' 13 12 = 0#12) :
    encodeWord (.transact (w.getLsbD 27) (w.getLsbD 26) (w.getLsbD 25) (cfgField w) : Instr) = w :=
  calc encodeWord (.transact (w.getLsbD 27) (w.getLsbD 26) (w.getLsbD 25) (cfgField w) : Instr)
      = w.extractLsb' 28 4 ++ w.extractLsb' 27 1 ++ w.extractLsb' 26 1 ++ w.extractLsb' 25 1 ++ w.extractLsb' 13 12 ++
          w.extractLsb' 0 13 := by
        rw [encodeWord, ← hop, ← hz, ofBool_getLsbD, ofBool_getLsbD, ofBool_getLsbD, opField, cfgField]
    _ = w := by
      iterate 5 rw [BitVec.extractLsb'_append_extractLsb'_eq_extractLsb' (by rfl)]
      exact BitVec.extractLsb'_eq_self

theorem encodeWord_writeConfig_fields (hop : opField w = 1#4) (hz : w.extractLsb' 13 15 = 0#15) :
    encodeWord (.writeConfig (cfgField w) : Instr) = w :=
  calc encodeWord (.writeConfig (cfgField w) : Instr)
      = w.extractLsb' 28 4 ++ w.extractLsb' 13 15 ++ w.extractLsb' 0 13 := by
        rw [encodeWord, ← hop, ← hz, opField, cfgField]
    _ = w := by
      iterate 2 rw [BitVec.extractLsb'_append_extractLsb'_eq_extractLsb' (by rfl)]
      exact BitVec.extractLsb'_eq_self

theorem encodeWord_readConfig_fields (hop : opField w = 2#4) (hz : w.extractLsb' 0 28 = 0#28) :
    encodeWord (.readConfig : Instr) = w := by
  rw [encodeWord, ← hop, ← hz, opField]
  exact BitVec.extractLsb'_append_extractLsb'

theorem encodeWord_bulkRead_fields (hop : opField w = 3#4) (hz : w.extractLsb' 16 11 = 0#11) :
    encodeWord (.bulkRead (w.getLsbD 27) (w.extractLsb' 0 16) : Instr) = w :=
  calc encodeWord (.bulkRead (w.getLsbD 27) (w.extractLsb' 0 16) : Instr)
      = w.extractLsb' 28 4 ++ w.extractLsb' 27 1 ++ w.extractLsb' 16 11 ++ w.extractLsb' 0 16 := by
        rw [encodeWord, ← hop, ← hz, ofBool_getLsbD, opField]
    _ = w := by
      iterate 3 rw [BitVec.extractLsb'_append_extractLsb'_eq_extractLsb' (by rfl)]
      exact BitVec.extractLsb'_eq_self

theorem encodeWord_init_fields (tcfg : Config.TCfg) (hop : opField w = 4#4) (hz : w.extractLsb' 13 7 = 0#7) :
    encodeWord (.init (w.extractLsb' 20 8) (cfgField w) tcfg) = w :=
  calc encodeWord (.init (w.extractLsb' 20 8) (cfgField w) tcfg)
      = w.extractLsb' 28 4 ++ w.extractLsb' 20 8 ++ w.extractLsb' 13 7 ++ w.extractLsb' 0 13 := by
        rw [encodeWord, ← hop, ← hz, opField, cfgField]
    _ = w := by
      iterate 3 rw [BitVec.extractLsb'_append_extractLsb'_eq_extractLsb' (by rfl)]
      exact BitVec.extractLsb'_eq_self

theorem encodeWord_teardown_fields (hop : opField w = 5#4) (hz : w.extractLsb' 0 28 = 0#28) :
    encodeWord (.teardown : Instr) = w := by
  rw [encodeWord, ← hop, ← hz, opField]
  exact BitVec.extractLsb'_append_extractLsb'

end

/-- Settles O11: a word that decodes has the opcode and the zero bits of its format, and with the operands cut from it
that is all of its bits. -/
theorem encodeDecode : Obligations.EncodeDecode := by
  unfold Obligations.EncodeDecode
  intro w tcfg i h
  rcases decode_eq_ok_iff.mp h with ⟨⟨hop, hz⟩, rfl⟩ | ⟨⟨hop, hz⟩, rfl⟩ | ⟨⟨hop, hz⟩, rfl⟩ | ⟨⟨hop, hz⟩, rfl⟩ |
    ⟨⟨hop, hz⟩, rfl⟩ | ⟨⟨hop, hz⟩, rfl⟩
  · exact ⟨encodeWord_transact_fields hop hz, nofun⟩
  · exact ⟨encodeWord_writeConfig_fields hop hz, nofun⟩
  · exact ⟨encodeWord_readConfig_fields hop hz, nofun⟩
  · exact ⟨encodeWord_bulkRead_fields hop hz, nofun⟩
  · refine ⟨encodeWord_init_fields tcfg hop hz, fun vtag cfg tc hi => ?_⟩
    obtain ⟨-, -, rfl⟩ := Instr.init.inj hi
    rfl
  · exact ⟨encodeWord_teardown_fields hop hz, nofun⟩

/-- Settles O14: the decoder reads each word. -/
theorem wordsOfTheSpecDecode : Obligations.WordsOfTheSpecDecode := by
  unfold Obligations.WordsOfTheSpecDecode
  exact fun _ => ⟨rfl, rfl, rfl, rfl, rfl, rfl, rfl, rfl, rfl, rfl⟩

end Sys2Proof

/-! ## The invariants of a run (spec 10_state R26, R29, 20_memory R48, 43_lifecycle R154) -/

namespace Sys2Proof.Machine

/-- What a property of states must be kept by for every step to keep it: the inputs that are no command, the answer to
an illegal word, and every command of an engine that waits on nothing. -/
structure Kept (I : State → Prop) : Prop where
  accept : ∀ {s : State} (rest : List Input), I s → I (s.accept rest)
  hostWrite : ∀ {s : State} (i : BitVec 16) (v : Word16), I s → I (s.hostWrite i v)
  hardwareReset : ∀ {s : State}, s.waiting = none → I s → I s.hardwareReset
  respond_invalid : ∀ {s : State}, I s → I (s.respond .invalid)
  command : ∀ {s t : State} {i : Instr}, ExecTo s i t → s.waiting = none → I s → I t

/-- Such a property is an invariant. -/
theorem Kept.step {I : State → Prop} (hI : Kept I) {s t : State} (hs : I s) (h : step s = .next t) : I t := by
  rcases step_cases h with
    ⟨rfl, -⟩ | ⟨hw, x, rest, -, ⟨i, v, -, rfl⟩ | ⟨-, rfl⟩ | ⟨c, i, -, -, hx⟩ | ⟨c, e, -, -, rfl⟩⟩
  · exact hs
  · exact hI.hostWrite i v (hI.accept rest hs)
  · exact hI.hardwareReset hw (hI.accept rest hs)
  · exact hI.command hx hw (hI.accept rest hs)
  · exact hI.respond_invalid (hI.accept rest hs)

/-! ### Who holds the transport (R154) -/

section
variable {TCfg TErr : Type} {s t : State TCfg TErr} {i : Instr TCfg} {evs : List (Event TCfg TErr)} {b b' : Bool}

@[simp] theorem linkStep_resp (r : Response TErr) : linkStep (some b) (.resp r : Event TCfg TErr) = some b := by
  cases b <;> rfl

@[simp] theorem linkStep_hwReset : linkStep (some b) (.hwReset : Event TCfg TErr) = some false := by
  cases b <;> rfl

/-- Between commands the transport is held exactly while READY = 1. -/
theorem State.holds_of_idle (hw : s.waiting = none) (hr : s.ready = b) : s.holds = b := by
  simp [State.holds, hw, hr]

/-- The link invariant after the events of a command that came to an idle engine. -/
theorem LinkInv.after (hs : LinkInv s) (hw : s.waiting = none) (hr : s.ready = b) (hlog : t.log = s.log ++ evs)
    (hevs : evs.foldl linkStep (some b) = some b') (ht : t.holds = b') : LinkInv t := by
  have held : linkHeld s.log = some b := hs.trans (congrArg some (State.holds_of_idle hw hr))
  rw [LinkInv, hlog, linkHeld_append, held, hevs, ht]

theorem LinkInv.respond (hs : LinkInv s) (r : Response TErr) : LinkInv (s.respond r) := by
  have held : linkHeld s.log = some s.holds := hs
  rw [LinkInv, State.respond_log, linkHeld_append, held]
  exact linkStep_resp r

theorem LinkInv.hardwareReset (hs : LinkInv s) (hw : s.waiting = none) : LinkInv s.hardwareReset :=
  hs.after (b' := false) hw rfl s.hardwareReset_log linkStep_hwReset (State.holds_of_idle hw rfl)

/-- Every command keeps the link invariant. -/
theorem ExecTo.linkInv (h : ExecTo s i t) (hw : s.waiting = none) (hs : LinkInv s) : LinkInv t := by
  cases h with
  | uninit | bulkNull | initTag | initInUse => exact hs.respond _
  -- the transport is held before and after
  | transactOk | transactErr | writeOk | writeErr | shortOk | shortErr | longAErr | longBErr | longCErr | longOk =>
    refine .respond ?_ _
    exact hs.after (b' := true) hw ‹_› rfl rfl (State.holds_of_idle hw ‹_›)
  | bulkOk _ _ _ _ hr =>
    refine .respond ?_ _
    exact hs.after hw hr rfl (bulkEvents_linkStep _ _ _) (State.holds_of_idle hw hr)
  | bulkErr _ _ _ _ _ hr =>
    refine .respond ?_ _
    refine hs.after hw hr (List.append_assoc _ _ _) ?_ (State.holds_of_idle hw hr)
    rw [List.foldl_append, bulkEvents_linkStep]
    rfl
  | transactHung | writeHung | shortHung | longAHung =>
    exact hs.after (evs := []) hw ‹_› (List.append_nil _).symm rfl rfl
  | longBHung | longCHung => exact hs.after hw ‹_› rfl rfl rfl
  | bulkHung _ _ _ _ hr => exact hs.after hw hr rfl (bulkEvents_linkStep _ _ _) rfl
  -- INIT takes it, and gives it back where a transfer fails
  | initAcqErr | initWriteErr | initConvErr =>
    refine .respond ?_ _
    exact hs.after (b' := false) hw ‹_› rfl rfl (State.holds_of_idle hw ‹_›)
  | initAcqHung => exact hs.after (evs := []) hw ‹_› (List.append_nil _).symm rfl rfl
  | initWriteHung | initConvHung => exact hs.after hw ‹_› rfl rfl rfl
  | initOk =>
    refine .respond ?_ _
    exact hs.after (b' := true) hw ‹_› rfl rfl (State.holds_of_idle hw rfl)
  -- TEARDOWN gives it back
  | teardown hr =>
    refine .respond ?_ _
    exact hs.after (b' := false) hw hr rfl rfl (State.holds_of_idle hw rfl)

end

theorem linkInv_kept : Kept LinkInv where
  accept _ hs := hs
  hostWrite _ _ hs := hs
  hardwareReset hw hs := hs.hardwareReset hw
  respond_invalid hs := hs.respond _
  command h hw hs := h.linkInv hw hs

/-- Settles O42: every input and every command keeps the link invariant. -/
theorem stepKeepsLinkProtocol : Obligations.StepKeepsLinkProtocol := by
  unfold Obligations.StepKeepsLinkProtocol
  exact fun _ _ hs h => linkInv_kept.step hs h

/-! ### The shadow replayed from the log (R26, R168) -/

section
variable {TCfg TErr : Type} {s t : State TCfg TErr} {i : Instr TCfg} {evs : List (Event TCfg TErr)}

@[simp] theorem writtenConfig_zeroBytes : writtenConfig zeroBytes = none := by decide

theorem shadowInv_of_idle (hw : s.waiting = none) : ShadowInv s ↔ (s.p, s.a) = shadowOf s.log := by
  simp [ShadowInv, hw]

/-- The shadow invariant after the events of a command that came to an idle engine, unless it waits on an Acquire. -/
theorem ShadowInv.after (hs : ShadowInv s) (hw : s.waiting = none) (hlog : t.log = s.log ++ evs)
    (hevs : evs.foldl shadowStep (s.p, s.a) = (t.p, t.a)) (ht : ∀ tcfg, t.waiting ≠ some (.acquire tcfg)) :
    ShadowInv t := by
  have replay : (t.p, t.a) = shadowOf t.log := by
    rw [hlog, shadowOf_append, ← (shadowInv_of_idle hw).mp hs, hevs]
  rcases hwt : t.waiting with _ | (tcfg | out)
  · rwa [shadowInv_of_idle hwt]
  · exact absurd hwt (ht tcfg)
  · simpa [ShadowInv, hwt] using replay

theorem ShadowInv.respond (hs : ShadowInv s) (r : Response TErr) : ShadowInv (s.respond r) := by
  have same : shadowOf (s.respond r).log = shadowOf s.log := by
    rw [State.respond_log, shadowOf_append]
    rfl
  rw [ShadowInv, same]
  exact hs

theorem ShadowInv.hardwareReset (hs : ShadowInv s) (hw : s.waiting = none) : ShadowInv s.hardwareReset :=
  hs.after hw s.hardwareReset_log rfl (by simp [hw])

/-- Every command keeps the shadow invariant. -/
theorem ExecTo.shadowInv (h : ExecTo s i t) (hw : s.waiting = none) (hs : ShadowInv s) : ShadowInv t := by
  cases h with
  | uninit | bulkNull | initTag | initInUse => exact hs.respond _
  | transactOk cwe => exact .respond (hs.after hw rfl (by cases cwe <;> simp [shadowStep]) (by simp [hw])) _
  | transactErr | writeOk | writeErr | shortOk | shortErr | longAErr | longBErr | longCErr | longOk
  | initAcqErr | initWriteErr | initConvErr | initOk | teardown =>
    exact .respond (hs.after hw rfl (by simp [shadowStep]) (by simp [hw])) _
  | bulkOk => exact .respond (hs.after hw rfl (bulkEvents_shadowStep _ _ _ _) (by simp [bulkState, hw])) _
  | bulkErr =>
    refine .respond (hs.after hw (List.append_assoc _ _ _) ?_ (by simp [bulkState, hw])) _
    rw [List.foldl_append, bulkEvents_shadowStep]
    rfl
  | transactHung | writeHung | shortHung | longAHung => exact hs.after (evs := []) hw (List.append_nil _).symm rfl nofun
  | longBHung | longCHung | initWriteHung | initConvHung => exact hs.after hw rfl (by simp [shadowStep]) nofun
  | bulkHung => exact hs.after hw rfl (bulkEvents_shadowStep _ _ _ _) nofun
  | initAcqHung => exact ⟨rfl, rfl⟩

end

theorem shadowInv_kept : Kept ShadowInv where
  accept _ hs := hs
  hostWrite _ _ hs := hs
  hardwareReset hw hs := hs.hardwareReset hw
  respond_invalid hs := hs.respond _
  command h hw hs := h.shadowInv hw hs

/-- Settles O44: every input and every command keeps the shadow invariant. -/
theorem stepKeepsShadowReplay : Obligations.StepKeepsShadowReplay := by
  unfold Obligations.StepKeepsShadowReplay
  exact fun _ _ hs h => shadowInv_kept.step hs h

/-! ### What is observed (R80, R42, R48) -/

section
variable {TCfg TErr : Type} {s t : State TCfg TErr} {i : Instr TCfg} {evs : List (Event TCfg TErr)}

theorem EventInv.after (hs : EventInv s) (hlog : t.log = s.log ++ evs) (hevs : evs.all Event.wf = true) :
    EventInv t := by
  rw [EventInv, hlog, List.all_append, show s.log.all Event.wf = true from hs, hevs, Bool.true_and]

/-- A well-formed response may follow. -/
theorem EventInv.respond {r : Response TErr} (hs : EventInv s) (hr : r.wf = true) : EventInv (s.respond r) :=
  hs.after (s.respond_log r) (by simpa [Event.wf] using hr)

@[simp] theorem zeroBytes_len : zeroBytes.len = .two := rfl

theorem bulkEvents_wf_of_count {count : BitVec 16} {frames : List InFrame} (v : BitVec 2)
    (hl : frames.length ≤ count.toNat) : (bulkEvents v 0 frames : List (Event TCfg TErr)).all Event.wf = true :=
  bulkEvents_wf v 0 frames (by omega)

/-- What a command logs before its response is well-formed, and so is the response. -/
theorem ExecTo.eventInv (h : ExecTo s i t) (hs : EventInv s) : EventInv t := by
  cases h with
  | uninit | bulkNull | initTag | initInUse => exact hs.respond rfl
  | transactOk | shortOk | longOk =>
    refine .respond ?_ (transactResponse_wf _ _ _ _ _)
    exact hs.after rfl (by simp [Event.wf, *])
  | transactErr | writeOk | writeErr | shortErr | longAErr | longBErr | longCErr | initAcqErr | initWriteErr
  | initConvErr | initOk | teardown =>
    refine .respond ?_ rfl
    exact hs.after rfl (by simp [Event.wf, *])
  | bulkOk _ _ _ _ _ hl =>
    refine .respond ?_ rfl
    exact hs.after rfl (bulkEvents_wf_of_count s.v hl.le)
  | bulkErr _ _ _ _ _ _ hl =>
    refine .respond ?_ rfl
    refine hs.after (List.append_assoc _ _ _) ?_
    rw [List.all_append, bulkEvents_wf_of_count s.v hl.le]
    rfl
  | bulkHung _ _ _ _ _ hl => exact hs.after rfl (bulkEvents_wf_of_count s.v hl.le)
  | transactHung | writeHung | shortHung | longAHung | initAcqHung => exact hs
  | longBHung | longCHung | initWriteHung | initConvHung => exact hs.after rfl (by simp [Event.wf, *])

end

theorem eventInv_kept : Kept EventInv where
  accept _ hs := hs
  hostWrite _ _ hs := hs
  hardwareReset _ hs := hs.after (State.hardwareReset_log _) rfl
  respond_invalid hs := hs.respond rfl
  command h _ hs := h.eventInv hs

/-- Settles O45: every input and every command logs well-formed events. -/
theorem stepKeepsEventsWellFormed : Obligations.StepKeepsEventsWellFormed := by
  unfold Obligations.StepKeepsEventsWellFormed
  exact fun _ _ hs h => eventInv_kept.step hs h

/-! ### The sequencer between commands, and DST (R29, R48) -/

section
variable {TCfg TErr : Type} {s t : State TCfg TErr} {i : Instr TCfg}

/-- A command that has responded leaves the sequencer idle; the others wait. -/
theorem CommandEnds.idleInv (h : CommandEnds s t) : IdleInv t := by
  obtain ⟨evs, -, ⟨r, -, hseq, -⟩ | ⟨q, -, hw⟩⟩ := h
  · exact fun _ => hseq
  · exact fun hn => absurd (hw.symm.trans hn) nofun

/-- What a command does to DST: nothing, or the writes of a BULK_READ's first samples. -/
theorem ExecTo.dst_cases (h : ExecTo s i t) : t.dst = s.dst ∨ ∃ (count : BitVec 16) (frames : List InFrame),
    i = .bulkRead true count ∧ s.ready = true ∧ frames.length ≤ count.toNat ∧
      t.dst = bulkWrites s.v 0 frames s.dst := by
  cases h with
  | bulkOk count frames _ _ hr hl => exact .inr ⟨count, frames, rfl, hr, hl.le, rfl⟩
  | bulkErr count frames _ _ _ hr hl | bulkHung count frames _ _ hr hl =>
    exact .inr ⟨count, frames, rfl, hr, hl.le, rfl⟩
  | _ => exact .inl rfl

theorem ExecTo.dstInv (h : ExecTo s i t) (hs : DstInv s) : DstInv t := by
  obtain hd | ⟨count, frames, -, -, hl, hd⟩ := h.dst_cases
  · exact (congrArg (dstWf · = true) hd).mpr hs
  · exact (congrArg (dstWf · = true) hd).mpr (bulkWrites_wf s.v frames 0 (by omega) hs)

end

theorem idleInv_kept : Kept IdleInv where
  accept _ hs := hs
  hostWrite _ _ hs := hs
  hardwareReset _ _ := fun _ => rfl
  respond_invalid _ := fun _ => rfl
  command h _ _ := h.commandEnds.idleInv

theorem dstInv_kept : Kept DstInv where
  accept _ hs := hs
  hostWrite i v hs := dstWrite_wf v i.isLt hs
  hardwareReset _ hs := hs
  respond_invalid hs := hs
  command h _ hs := h.dstInv hs

/-- Settles O46: every input and every command keeps both invariants. -/
theorem stepKeepsIdleAndDst : Obligations.StepKeepsIdleAndDst := by
  unfold Obligations.StepKeepsIdleAndDst
  exact fun _ _ hidle hdst h => ⟨idleInv_kept.step hidle h, dstInv_kept.step hdst h⟩

/-- Settles O47: right after reset the log and DST are empty, READY and the slots are 0, and nothing waits. -/
theorem resetMeetsTheInvariants : Obligations.ResetMeetsTheInvariants := by
  unfold Obligations.ResetMeetsTheInvariants
  exact ⟨rfl, rfl, rfl, fun _ => rfl, rfl⟩

/-! ### The order of the transport's events (R154) -/

section
variable {TCfg TErr : Type} {log before since : List (Event TCfg TErr)} {e : Event TCfg TErr}

/-- The log has a successful Acquire after which neither a release nor a hardware reset came. -/
def HeldSince (log : List (Event TCfg TErr)) : Prop :=
  ∃ (early since : List (Event TCfg TErr)) (tcfg : TCfg), log = early ++ .acq tcfg .ok :: since ∧
    .rel ∉ since ∧ .hwReset ∉ since

/-- One more event that ends no hold. -/
theorem HeldSince.append (h : HeldSince log) (hrel : e ≠ .rel) (hreset : e ≠ .hwReset) : HeldSince (log ++ [e]) := by
  obtain ⟨early, since, tcfg, rfl, hrel', hreset'⟩ := h
  exact ⟨early, since ++ [e], tcfg, by simp, by simp [hrel', hrel.symm], by simp [hreset', hreset.symm]⟩

/-- The transport is held after an event in two cases: it is a successful Acquire, or the transport was held before and
the event ends no hold. -/
theorem linkStep_eq_some_true {held : Option Bool} (h : linkStep held e = some true) :
    (∃ tcfg, e = .acq tcfg .ok) ∨ (held = some true ∧ e ≠ .rel ∧ e ≠ .hwReset) := by
  rcases held with - | held
  · cases h
  cases e with
  | acq tcfg r =>
    cases r with
    | ok => exact .inl ⟨tcfg, rfl⟩
    | err => cases held <;> cases h
  | rel => cases held <;> cases h
  | hwReset => cases held <;> cases h
  | xfer | dstWrite | resp =>
    cases held with
    | true => exact .inr ⟨rfl, nofun, nofun⟩
    | false => cases h

theorem heldSince_of_linkHeld (h : linkHeld log = some true) : HeldSince log := by
  induction log using List.reverseRecOn with
  | nil => cases h
  | append_singleton log e ih =>
    rw [linkHeld_append] at h
    obtain ⟨tcfg, rfl⟩ | ⟨hheld, hrel, hreset⟩ := linkStep_eq_some_true h
    · exact ⟨log, [], tcfg, rfl, List.not_mem_nil, List.not_mem_nil⟩
    · exact (ih hheld).append hrel hreset

/-- An event that ends no hold ends none, or breaks the protocol. -/
theorem linkStep_ne_some_false {held : Option Bool} (hheld : held ≠ some false) (hrel : e ≠ .rel)
    (hreset : e ≠ .hwReset) : linkStep held e ≠ some false := by
  rcases held with - | (_ | _)
  · nofun
  · exact absurd rfl hheld
  cases e with
  | rel => exact absurd rfl hrel
  | hwReset => exact absurd rfl hreset
  | acq | xfer | dstWrite | resp => nofun

theorem foldl_linkStep_ne_some_false {held : Option Bool} (hheld : held ≠ some false) (hrel : .rel ∉ since)
    (hreset : .hwReset ∉ since) : since.foldl linkStep held ≠ some false := by
  induction since generalizing held with
  | nil => exact hheld
  | cons e since ih =>
    obtain ⟨he, hrel⟩ := List.ne_and_not_mem_of_not_mem_cons hrel
    obtain ⟨he', hreset⟩ := List.ne_and_not_mem_of_not_mem_cons hreset
    exact ih (linkStep_ne_some_false hheld he.symm he'.symm) hrel hreset

/-- After a successful Acquire, only a release or a hardware reset leaves the transport not held. -/
theorem HeldSince.linkHeld_ne_some_false (h : HeldSince log) : linkHeld log ≠ some false := by
  obtain ⟨early, since, tcfg, rfl, hrel, hreset⟩ := h
  rw [linkHeld_append, List.foldl_cons]
  refine foldl_linkStep_ne_some_false ?_ hrel hreset
  rcases linkHeld early with - | (_ | _) <;> nofun

variable {s : State TCfg TErr} {after : List (Event TCfg TErr)}

/-- No event of the log breaks the protocol. -/
theorem LinkInv.linkStep_ne_none (hs : LinkInv s) (hlog : s.log = before ++ e :: after) :
    linkStep (linkHeld before) e ≠ none := by
  intro hnone
  rw [LinkInv, hlog, linkHeld_append, List.foldl_cons, hnone, foldl_linkStep_none] at hs
  cases hs

/-- Whoever exchanges or releases holds the transport. -/
theorem LinkInv.linkHeld_of_use (hs : LinkInv s) (hlog : s.log = before ++ e :: after)
    (he : e = .rel ∨ ∃ out res, e = .xfer out res) : linkHeld before = some true := by
  have hok : linkStep (linkHeld before) e ≠ none := hs.linkStep_ne_none hlog
  rcases hheld : linkHeld before with - | (_ | _)
  · exact absurd (by rw [hheld]; rfl) hok
  · obtain rfl | ⟨out, res, rfl⟩ := he <;> exact absurd (by rw [hheld]; rfl) hok
  · rfl

/-- Whoever acquires does not hold it yet. -/
theorem LinkInv.linkHeld_of_acq {tcfg : TCfg} {res : AcqResult TErr} (hs : LinkInv s)
    (hlog : s.log = before ++ .acq tcfg res :: after) : linkHeld before = some false := by
  have hok : linkStep (linkHeld before) (.acq tcfg res) ≠ none := hs.linkStep_ne_none hlog
  rcases hheld : linkHeld before with - | (_ | _)
  · exact absurd (by rw [hheld]; rfl) hok
  · rfl
  · exact absurd (by rw [hheld]; rfl) hok

end

/-- Settles O43: at each event of a log without a break in the protocol, who held the transport before it says what the
events before it were. -/
theorem linkProtocolOrdersTheTrace : Obligations.LinkProtocolOrdersTheTrace := by
  unfold Obligations.LinkProtocolOrdersTheTrace
  intro s t u hs h hu before after e hlog
  have hinv : LinkInv u := by
    obtain rfl | rfl := hu
    · exact hs
    · exact linkInv_kept.step hs h
  refine ⟨fun he => heldSince_of_linkHeld (hinv.linkHeld_of_use hlog he), ?_⟩
  rintro tcfg res rfl early since tcfg' hbefore
  by_contra hnone
  obtain ⟨hrel, hreset⟩ := not_or.mp hnone
  have hheld : HeldSince before := ⟨early, since, tcfg', hbefore, hrel, hreset⟩
  exact hheld.linkHeld_ne_some_false (hinv.linkHeld_of_acq hlog)

end Sys2Proof.Machine

/-! ## What every command may change (spec 10_state R21 to R27, 20_memory R48, 60_exceptions R160) -/

namespace Sys2Proof.Machine

open Sys2Proof.Config

section
variable {TCfg TErr : Type} {s t u : State TCfg TErr} {i : Instr TCfg} {evs : List (Event TCfg TErr)}
variable {e : Event TCfg TErr} {r : Response TErr}

/-! ### V, READY and the port (R21, R22, R52) -/

/-- V changes only where INIT allocates. -/
theorem ExecTo.v_cases (h : ExecTo s i t) : t.v = s.v ∨ ∃ vtag cfg tcfg,
    i = .init vtag cfg tcfg ∧ s.ready = false ∧ vtag.toNat ≤ 3 ∧ t.v = vtag.extractLsb' 0 2 := by
  cases h with
  | initAcqErr vtag cfg tcfg | initAcqHung vtag cfg tcfg | initWriteErr vtag cfg tcfg | initWriteHung vtag cfg tcfg
  | initConvErr vtag cfg tcfg | initConvHung vtag cfg tcfg | initOk vtag cfg tcfg =>
    exact .inr ⟨vtag, cfg, tcfg, rfl, ‹_›, ‹_›, rfl⟩
  | _ => exact .inl rfl

/-- READY changes only where an INIT or a TEARDOWN responds OK. -/
theorem ExecTo.ready_cases (h : ExecTo s i t) : t.ready = s.ready ∨
    t.log.getLast? = some (.resp .okPlain) ∧
      ((∃ vtag cfg tcfg, i = .init vtag cfg tcfg) ∧ t.ready = true ∨ i = .teardown ∧ t.ready = false) := by
  cases h with
  | initOk vtag cfg tcfg => exact .inr ⟨List.getLast?_concat, .inl ⟨⟨vtag, cfg, tcfg, rfl⟩, rfl⟩⟩
  | teardown => exact .inr ⟨List.getLast?_concat, .inr ⟨rfl, rfl⟩⟩
  | _ => exact .inl rfl

/-- No command reads or writes the port. -/
theorem ExecTo.port_eq (h : ExecTo s i t) : t.port = s.port := by
  cases h <;> rfl

/-! ### The shadow (R27) -/

/-- What a command logged after what was there. -/
theorem mem_drop_of_log (hlog : t.log = s.log ++ evs) (he : e ∈ evs) : e ∈ t.log.drop s.log.length := by
  rwa [hlog, List.drop_left]

theorem mem_drop_of_respond (hlog : u.log = s.log ++ evs) (he : e ∈ evs) :
    e ∈ (u.respond r).log.drop s.log.length := by
  refine mem_drop_of_log (evs := evs ++ [.resp r]) ?_ (List.mem_append_left _ he)
  rw [State.respond_log, hlog, List.append_assoc]

/-- Samples that change the shadow are some, and the exchange of the first succeeded. -/
theorem bulkState_shadow_cases (s : State TCfg TErr) (frames : List InFrame) (q : List (XferAnswer TErr)) (d : Nat) :
    ((bulkState s 0 frames q d).p = s.p ∧ (bulkState s 0 frames q d).a = s.a) ∨
      ∃ out inb, (.xfer out (.ok inb) : Event TCfg TErr) ∈ bulkEvents s.v 0 frames := by
  cases frames with
  | nil => exact .inl ⟨rfl, rfl⟩
  | cons f frames => exact .inr ⟨_, _, List.mem_cons_self⟩

/-- P and A change only by INIT, or by an exchange that succeeds while READY = 1. -/
theorem ExecTo.shadow_cases (h : ExecTo s i t) : (t.p = s.p ∧ t.a = s.a) ∨ (∃ vtag cfg tcfg, i = .init vtag cfg tcfg) ∨
    (s.ready = true ∧ ∃ out inb, .xfer out (.ok inb) ∈ t.log.drop s.log.length) := by
  cases h with
  | transactOk | writeOk | shortOk | longBErr | longCErr | longOk =>
    exact .inr (.inr ⟨‹_›, _, _, mem_drop_of_respond rfl List.mem_cons_self⟩)
  | longBHung | longCHung => exact .inr (.inr ⟨‹_›, _, _, mem_drop_of_log rfl List.mem_cons_self⟩)
  | bulkOk _ frames q d hr =>
    obtain hsame | ⟨out, inb, hmem⟩ := bulkState_shadow_cases s frames q d
    · exact .inl hsame
    · exact .inr (.inr ⟨hr, out, inb, mem_drop_of_respond rfl hmem⟩)
  | bulkErr _ frames q d _ hr =>
    obtain hsame | ⟨out, inb, hmem⟩ := bulkState_shadow_cases s frames q d
    · exact .inl hsame
    · exact .inr (.inr ⟨hr, out, inb,
        mem_drop_of_respond (List.append_assoc _ _ _) (List.mem_append_left _ hmem)⟩)
  | bulkHung _ frames q d hr =>
    obtain hsame | ⟨out, inb, hmem⟩ := bulkState_shadow_cases s frames q d
    · exact .inl hsame
    · exact .inr (.inr ⟨hr, out, inb, mem_drop_of_log rfl hmem⟩)
  | initTag vtag cfg tcfg | initInUse vtag cfg tcfg | initAcqErr vtag cfg tcfg | initAcqHung vtag cfg tcfg
  | initWriteErr vtag cfg tcfg | initWriteHung vtag cfg tcfg | initConvErr vtag cfg tcfg | initConvHung vtag cfg tcfg
  | initOk vtag cfg tcfg => exact .inr (.inl ⟨vtag, cfg, tcfg, rfl⟩)
  | _ => exact .inl ⟨rfl, rfl⟩

/-! ### DST (R48) -/

/-- The writes of a BULK_READ's samples are below their number. -/
theorem dstRead_bulkWrites_of_le {v : BitVec 2} {frames : List InFrame} {d : Dst} {j : Nat} (hj : frames.length ≤ j) :
    dstRead (bulkWrites v 0 frames d) j = dstRead d j := by
  rw [dstRead_bulkWrites_zero, bulkDst, List.getElem?_eq_none hj]

/-- A word of DST changes only by a BULK_READ with a destination in state READY, below COUNT. -/
theorem ExecTo.dstRead_cases (h : ExecTo s i t) (j : Nat) : dstRead t.dst j = dstRead s.dst j ∨
    ∃ count : BitVec 16, i = .bulkRead true count ∧ j < count.toNat ∧ s.ready = true := by
  obtain hd | ⟨count, frames, hi, hr, hl, hd⟩ := h.dst_cases
  · exact .inl (by rw [hd])
  · by_cases hj : j < count.toNat
    · exact .inr ⟨count, hi, hj, hr⟩
    · exact .inl (by rw [hd, dstRead_bulkWrites_of_le (by omega)])

/-! ### A refused INIT (R150, R152) -/

/-- An INIT in state READY, or with an unrecognized tag, does nothing but respond. -/
theorem ExecTo.eq_respond_of_init {vtag : BitVec 8} {cfg : RegisterConfig} {tcfg : TCfg}
    (h : ExecTo s (.init vtag cfg tcfg) t) (hrefused : s.ready = true ∨ 3 < vtag.toNat) : ∃ r, t = s.respond r := by
  have accepted (hv : vtag.toNat ≤ 3) (hr : s.ready = false) : False := by
    rcases hrefused with hr' | hv'
    · cases hr.symm.trans hr'
    · omega
  cases h with
  | uninit _ _ hi => exact absurd rfl (hi vtag cfg tcfg)
  | initTag => exact ⟨_, rfl⟩
  | initInUse => exact ⟨_, rfl⟩
  | initAcqErr | initAcqHung | initWriteErr | initWriteHung | initConvErr | initConvHung | initOk =>
    exact (accepted ‹_› ‹_›).elim

theorem respond_trace (s : State TCfg TErr) (r : Response TErr) : (s.respond r).trace = s.trace :=
  trace_eq_of_log_append (s.respond_log r) (by simp)

end

/-- Every command answers a next state. -/
theorem exists_exec_eq_next (i : Instr) (s : State) : ∃ t, exec i s = .next t := by
  cases i <;> exact ⟨_, rfl⟩

/-- Settles O30: every command answers a next state, and `CommandEnds` says how. -/
theorem oneResponsePerCommand : Obligations.OneResponsePerCommand := by
  unfold Obligations.OneResponsePerCommand
  refine ⟨fun i s hs => ?_, fun st => by cases st <;> simp, rfl, rfl, rfl, rfl⟩
  obtain ⟨t, h⟩ := exists_exec_eq_next i s
  obtain ⟨evs, hevs, ⟨r, hlog, hseq, hw⟩ | ⟨q, hlog, hw⟩⟩ := (exec_cases h).commandEnds
  · exact ⟨t, evs, h, hevs, .inl ⟨r, hlog, hseq, hw.trans hs⟩⟩
  · exact ⟨t, evs, h, hevs, .inr ⟨q, hlog, hw⟩⟩

/-- Settles O31, by the cases in which a command writes V. -/
theorem variantIsWrittenByInitAlone : Obligations.VariantIsWrittenByInitAlone := by
  unfold Obligations.VariantIsWrittenByInitAlone
  exact fun i s t h hv => (exec_cases h).v_cases.resolve_left hv

/-- Settles O32: where READY changed, the case of `ready_cases` names the command and its response. -/
theorem readyChangesOnlyByInitAndTeardown : Obligations.ReadyChangesOnlyByInitAndTeardown := by
  unfold Obligations.ReadyChangesOnlyByInitAndTeardown
  intro i s t h
  obtain hsame | ⟨hok, ⟨⟨vtag, cfg, tcfg, hi⟩, hset⟩ | ⟨hi, hcleared⟩⟩ := (exec_cases h).ready_cases
  · exact ⟨fun hs ht => by simp [hs, ht] at hsame, fun hs ht => by simp [hs, ht] at hsame⟩
  · exact ⟨fun _ _ => ⟨vtag, cfg, tcfg, hi, hok⟩, fun _ ht => by simp [ht] at hset⟩
  · exact ⟨fun _ ht => by simp [ht] at hcleared, fun _ _ => ⟨hi, hok⟩⟩

/-- Settles O33, by the cases in which a command writes the shadow. -/
theorem shadowChangesOnlyByExchanges : Obligations.ShadowChangesOnlyByExchanges := by
  unfold Obligations.ShadowChangesOnlyByExchanges
  intro i s t h hchanged
  exact (exec_cases h).shadow_cases.resolve_left fun ⟨hp, ha⟩ => hchanged.elim (absurd hp) (absurd ha)

/-- Settles O34, by the cases in which a command writes a word of DST. -/
theorem onlyBulkReadWritesDst : Obligations.OnlyBulkReadWritesDst := by
  unfold Obligations.OnlyBulkReadWritesDst
  exact fun i s t j h hj => ((exec_cases h).dstRead_cases j).resolve_left hj

/-- Settles O35: no case of the three commands writes any of the five. -/
theorem frameOfConfigCommands : Obligations.FrameOfConfigCommands := by
  unfold Obligations.FrameOfConfigCommands
  rintro i s t (⟨cwe, wc, ws, cfg, rfl⟩ | ⟨cfg, rfl⟩ | rfl) h
  · cases exec_cases h <;> exact ⟨rfl, rfl, rfl, rfl, rfl⟩
  · cases exec_cases h <;> exact ⟨rfl, rfl, rfl, rfl, rfl⟩
  · cases exec_cases h <;> exact ⟨rfl, rfl, rfl, rfl, rfl⟩

/-- Settles O36: the samples write A from P and DST below COUNT, and nothing else of the state named here. -/
theorem frameOfBulkRead : Obligations.FrameOfBulkRead := by
  unfold Obligations.FrameOfBulkRead
  intro dv count s t h
  have hdst (j : Nat) (hj : count.toNat ≤ j ∨ dv = false) : dstRead t.dst j = dstRead s.dst j := by
    obtain hsame | ⟨count', hi, hj', -⟩ := (exec_cases h).dstRead_cases j
    · exact hsame
    · obtain ⟨rfl, rfl⟩ := Instr.bulkRead.inj hi
      rcases hj with hj | hj
      · omega
      · cases hj
  have hslot (frames : List InFrame) :
      (if frames = [] then s.a else s.p) = s.a ∨ (if frames = [] then s.a else s.p) = s.p := ite_eq_or_eq _ _ _
  cases exec_cases h with
  | uninit | bulkNull => exact ⟨rfl, rfl, rfl, .inl rfl, rfl, rfl, hdst⟩
  | bulkOk _ frames | bulkErr _ frames | bulkHung _ frames => exact ⟨rfl, rfl, rfl, hslot frames, rfl, rfl, hdst⟩

/-- Settles O37: INIT writes no DST, and where it is refused it only responds. -/
theorem frameOfInit : Obligations.FrameOfInit := by
  unfold Obligations.FrameOfInit
  intro vtag cfg tcfg s t h
  refine ⟨?dst, (exec_cases h).port_eq, fun hrefused => ?refused⟩
  case dst =>
    exact (exec_cases h).dst_cases.resolve_right (by rintro ⟨_, _, ⟨⟩, -⟩)
  case refused =>
    obtain ⟨r, rfl⟩ := (exec_cases h).eq_respond_of_init hrefused
    exact ⟨rfl, rfl, rfl, rfl, respond_trace s r⟩

end Sys2Proof.Machine

/-! ## Commands that the transport leaves waiting (spec 20_memory R58) -/

namespace Sys2Proof.Machine

open Sys2Proof.Config

section
variable {TCfg TErr : Type} {s : State TCfg TErr} {c cfg : RegisterConfig} {cwe wc ws : Bool} {f : InFrame}
variable {frames : List InFrame} {out : Bytes} {outs : List Bytes} {rest : List (XferAnswer TErr)} {n i : Nat}

/-- The state in which an exchange is never answered: the engine waits on it, and nothing else happens. -/
def State.exchangeUnanswered (out : Bytes) (s : State TCfg TErr) : State TCfg TErr :=
  (xferAnswer out s).2.wait (.xfer out)

theorem transact_unanswered (h : nextAnswers (transactOut cwe c wc s :: outs) s = .never :: rest) :
    transact cwe c wc ws s = .hung (s.exchangeUnanswered (transactOut cwe c wc s)) :=
  transact_never (List.cons.inj h).1

/-! ### TRANSACT, WRITE_CONFIG and READ_CONFIG -/

theorem execTransact_unanswered (hr : s.ready = true) (h : nextAnswers [transactOut cwe c wc s] s = [.never]) :
    execTransact cwe wc ws c s = .next (s.exchangeUnanswered (transactOut cwe c wc s)) := by
  rw [execTransact, whenReady_ready hr, transact_unanswered h, Flow.finish_hung]

theorem transact_write_unanswered (h : nextAnswers (outBytes true c .two :: outs) s = .never :: rest) :
    transact true c false false s = .hung (s.exchangeUnanswered (outBytes true c .two)) :=
  transact_unanswered h

theorem confirmRead_unanswered (hb : rb s.a = true) (h : nextAnswers [confirmOut] s = [.never]) :
    confirmRead s = .hung (s.exchangeUnanswered confirmOut) := by
  rw [← transactOut_confirm hb] at h ⊢
  exact transact_unanswered h

/-! ### BULK_READ -/

theorem bulkLoop_succ_unanswered (h : nextAnswers [zeroBytes] s = [.never]) :
    bulkLoop (n + 1) i s = .hung (s.exchangeUnanswered zeroBytes) := by
  have hsample : transact false zeroConfig false true s = .hung (s.exchangeUnanswered zeroBytes) :=
    transact_unanswered h
  rw [bulkLoop, hsample, Flow.andThen_hung]

/-- The exchange with index `frames.length` is never answered. -/
theorem execBulkRead_unanswered {count : BitVec 16} (hr : s.ready = true) (hn : frames.length < count.toNat)
    (h : nextAnswers (List.replicate frames.length zeroBytes ++ [zeroBytes]) s =
      frames.map InFrame.answer ++ [.never]) :
    execBulkRead true count s = .next ((s.sampled 0 frames).exchangeUnanswered zeroBytes) := by
  obtain ⟨n, hcount⟩ := Nat.exists_eq_add_of_lt hn
  rw [execBulkRead_dest hr, hcount, Nat.add_assoc, bulkLoop_sampled h,
    bulkLoop_succ_unanswered (nextAnswers_sampled_of_append h), Flow.finish_hung]

theorem exchangeUnanswered_sampled :
    (s.sampled i frames).exchangeUnanswered zeroBytes =
      { afterAnswers (List.replicate (frames.length + 1) zeroBytes) s with
        a := if frames = [] then s.a else s.p
        seqStep := s.seqStep + frames.length
        dst := bulkWrites s.v i frames s.dst
        waiting := some (.xfer zeroBytes)
        log := s.log ++ bulkEvents s.v i frames } := by
  rw [sampled_eq, List.replicate_succ', afterAnswers_append]
  rfl

/-! ### INIT -/

variable {vtag : BitVec 8} {tcfg : TCfg}

theorem execInit_acquire_unanswered (hr : s.ready = false) (hv : vtag.toNat ≤ 3)
    (hacq : (acqAnswer tcfg s).1 = .never) :
    execInit vtag cfg tcfg s = .next (((acqAnswer tcfg s).2.allocate vtag).wait (.acquire tcfg)) := by
  have hans : (acqAnswer tcfg (s.allocate vtag)).1 = .never := hacq
  rw [execInit_allocated hv hr, initAllocated, acquire_never hans]
  rfl

theorem initTransfers_write_unanswered (h : nextAnswers [outBytes true cfg .two] s = [.never]) :
    initTransfers cfg s = .hung (s.exchangeUnanswered (outBytes true cfg .two)) := by
  rw [initTransfers, transact_write_unanswered h, orRelease_hung]

theorem initTransfers_conv_unanswered (h : nextAnswers [outBytes true cfg .two, zeroBytes] s = [f.answer, .never]) :
    initTransfers cfg s = .hung ((s.initWritten cfg f).exchangeUnanswered zeroBytes) := by
  have hconv : transact false zeroConfig false false (s.initWritten cfg f) =
      .hung ((s.initWritten cfg f).exchangeUnanswered zeroBytes) :=
    transact_unanswered (outs := []) (nextAnswers_exchanged h)
  rw [initTransfers_written h, hconv, orRelease_hung]

end

/-- Settles O23: a command cut off at the exchange that has no answer leaves the state the exchanges before it made. -/
theorem configCommandsUnanswered : Obligations.ConfigCommandsUnanswered := by
  unfold Obligations.ConfigCommandsUnanswered
  intro s f g ca out1 out2 out3 hr
  refine ⟨fun cwe wc ws cfg h => execTransact_unanswered hr h, fun cfg h => ?write, fun hb h => ?short,
    fun hb h => ?first, fun hb h => ?second, fun hb h => ?third⟩
  case write =>
    rw [exec, execWriteConfig, whenReady_ready hr, transact_write_unanswered h, Flow.statusOnly_hung, Flow.finish_hung]
    rfl
  case short =>
    rw [exec, execReadConfig_short hr hb, confirmRead_unanswered hb h, Flow.finish_hung]
    rfl
  case first =>
    rw [exec, execReadConfig_long hr hb, transact_write_unanswered h, Flow.onOk_hung, Flow.finish_hung]
    rfl
  case second =>
    rw [exec, execReadConfig_long hr hb, onOk_write_ok h, transact_write_unanswered (nextAnswers_exchanged h),
      Flow.onOk_hung, Flow.finish_hung]
    rfl
  case third =>
    rw [exec, execReadConfig_long_confirm hr hb h,
      confirmRead_unanswered (by simp) (nextAnswers_exchanged (nextAnswers_exchanged h)), Flow.finish_hung,
      State.exchangeUnanswered, State.wait, xferAnswer_log, log_exchanged, log_exchanged, List.append_assoc]
    rfl

/-- Settles O25: the loop runs through its successful exchanges by `bulkLoop_sampled` and waits on the next. -/
theorem bulkReadUnanswered : Obligations.BulkReadUnanswered := by
  unfold Obligations.BulkReadUnanswered
  intro count s frames outs hr hn h
  refine ⟨bulkWrites s.v 0 frames s.dst, ?_, dstRead_bulkWrites_zero s.v frames s.dst⟩
  rw [exec, execBulkRead_unanswered hr hn (List.replicate_succ' ▸ h), exchangeUnanswered_sampled]

/-- Settles O27: INIT waits on its Acquire, or the transfers wait after it. -/
theorem initUnanswered : Obligations.InitUnanswered := by
  unfold Obligations.InitUnanswered
  intro vtag cfg tcfg s f s1 out hr hv
  refine ⟨fun hacq => execInit_acquire_unanswered hr hv hacq, fun hacq h => ?write, fun hacq h => ?conv⟩
  case write =>
    rw [exec, execInit_acquired hr hv hacq, initTransfers_write_unanswered ((nextAnswers_initAcquired _).trans h),
      Flow.finish_hung]
    rfl
  case conv =>
    rw [exec, execInit_acquired hr hv hacq, initTransfers_conv_unanswered ((nextAnswers_initAcquired _).trans h),
      Flow.finish_hung, State.exchangeUnanswered, State.wait, xferAnswer_log, log_initWritten, log_initAcquired,
      List.append_assoc]
    rfl

end Sys2Proof.Machine

/-! ## The sample of the 14-bit variant (spec 40_transact R105, R113) -/

namespace Sys2Proof.Machine

/-! ### Division by 4 -/

section
variable (x : Int)

/-- Division by 4 toward zero, by the sign of the dividend. -/
theorem tdiv_four_eq : x.tdiv 4 = if 0 ≤ x then x / 4 else -(-x / 4) := by
  split
  · exact Int.tdiv_eq_ediv_of_nonneg ‹_›
  · rw [← Int.neg_neg x, Int.neg_tdiv, Int.neg_neg, Int.tdiv_eq_ediv_of_nonneg (by omega)]

/-- Division by 4 toward zero, by the division toward minus infinity. -/
theorem tdiv_four_eq_ediv : x.tdiv 4 = if 0 ≤ x ∨ x % 4 = 0 then x / 4 else x / 4 + 1 := by
  rw [tdiv_four_eq]
  split <;> split <;> omega

/-- The quotient toward zero is the one whose remainder is smaller than 4 and has the sign of the dividend. -/
theorem eq_tdiv_four_iff (q : Int) : q = x.tdiv 4 ↔
    ∃ r : Int, x = 4 * q + r ∧ -4 < r ∧ r < 4 ∧ (0 < r → 0 < x) ∧ (r < 0 → x < 0) := by
  rw [tdiv_four_eq]
  constructor
  · intro hq
    refine ⟨x - 4 * q, ?_⟩
    split at hq <;> omega
  · rintro ⟨r, hr⟩
    split <;> omega

/-- The arithmetic right shift divides toward minus infinity. -/
theorem shiftRight_two_eq_ediv : x >>> 2 = x / 4 :=
  (Int.shiftRight_natCast_right x 2).trans (Int.shiftRight_eq_div_pow x 2)

end

/-! ### The raw word: its data field and the two bits after it -/

section
variable (w : Word16)

/-- The last two bits are the remainder by 4. -/
theorem extractLsb'_zero_two_eq_zero_iff : w.extractLsb' 0 2 = 0#2 ↔ w.toInt % 4 = 0 := by
  rw [← BitVec.toNat_inj, BitVec.extractLsb'_toNat, BitVec.toInt_eq_toNat_cond, Nat.shiftRight_zero]
  simp only [BitVec.toNat_ofNat]
  split <;> omega

/-- The data field, as a signed number, is the quotient by 4 toward minus infinity. -/
theorem toInt_dataField : (w.extractLsb' 2 14).toInt = w.toInt / 4 := by
  rw [BitVec.toInt_extractLsb', BitVec.toInt_eq_toNat_cond, Nat.shiftRight_eq_div_pow, Int.bmod_def]
  split <;> split <;> omega

theorem toInt_sshiftRight_two : (w.sshiftRight 2).toInt = w.toInt / 4 :=
  BitVec.toInt_sshiftRight.trans (Int.shiftRight_eq_div_pow _ 2)

/-- A word is its data field and the two bits after it. -/
theorem eq_of_dataField {d : BitVec 14} {b : BitVec 2} (hd : w.extractLsb' 2 14 = d) (hb : w.extractLsb' 0 2 = b) :
    w = d ++ b := by
  rw [← hd, ← hb]
  exact (BitVec.extractLsb'_append_extractLsb' (w := 14) (len := 2)).symm

end

section
variable (inb : Bytes)

theorem decodeSample_v14_toInt_eq_tdiv : (decodeSample 2#2 inb).toInt = (raw16 inb).toInt.tdiv 4 :=
  decodeSample_v14_toInt inb

/-- The sample depends on the raw word alone. -/
theorem decodeSample_v14_of_raw16 {w : Word16} (h : raw16 inb = w) :
    decodeSample 2#2 inb = BitVec.ofInt 16 (w.toInt.tdiv 4) := by
  rw [decodeSample, sampleValue_v14, h]

end

/-- Settles O4: each law is one of the division by 4, which for a 16-bit word is the shift. -/
theorem sampleScalingTruncatesTowardZero : Obligations.SampleScalingTruncatesTowardZero := by
  unfold Obligations.SampleScalingTruncatesTowardZero
  refine ⟨fun inb => ?laws, by decide, by decide⟩
  intro x q
  have hq : q = x.tdiv 4 := decodeSample_v14_toInt_eq_tdiv inb
  simp only [hq, ne_eq, extractLsb'_zero_two_eq_zero_iff, toInt_sshiftRight_two, shiftRight_two_eq_ediv]
  refine ⟨eq_tdiv_four_iff x, fun hx => ?nonneg, fun hx => ?neg, ?floor, ?zero⟩
  case nonneg => rw [tdiv_four_eq, if_pos hx]
  case neg =>
    rw [tdiv_four_eq, if_neg (by omega)]
    exact ⟨rfl, by omega⟩
  case floor =>
    rw [tdiv_four_eq_ediv]
    split <;> split <;> omega
  case zero =>
    rw [tdiv_four_eq]
    split <;> omega

/-- Settles O9: the data field is the quotient by 4 toward minus infinity, which the sample exceeds by one where the
dividend is negative and the remainder is not 0. -/
theorem sharedBitsOfTheFourteenBitVariant : Obligations.SharedBitsOfTheFourteenBitVariant := by
  unfold Obligations.SharedBitsOfTheFourteenBitVariant
  refine ⟨fun inb => ?sample, fun b0 b1 b2 b3 => ?echo, fun inb hd ht => ?minusOne, fun inb hd ht => ?least⟩
  case sample =>
    intro d t
    have hd : d = (raw16 inb).toInt / 4 := toInt_dataField (raw16 inb)
    have ht : t = 0#2 ↔ (raw16 inb).toInt % 4 = 0 := extractLsb'_zero_two_eq_zero_iff (raw16 inb)
    have hsign : 0 ≤ (raw16 inb).toInt / 4 ↔ 0 ≤ (raw16 inb).toInt := by omega
    simp only [decodeSample_v14_toInt_eq_tdiv, tdiv_four_eq_ediv, hd, ht, hsign]
  case echo =>
    have hraw : (b0 ++ b1).extractLsb' 0 2 = b1.extractLsb' 0 2 := BitVec.extractLsb'_append_eq_of_add_le (by decide)
    calc (echoWord 2#2 (.four b0 b1 b2 b3)).extractLsb' 12 2
        = (b1.extractLsb' 0 2 ++ b2 ++ b3.extractLsb' 4 4).extractLsb' 12 2 := by rw [echoWord_v14]
      _ = (b1.extractLsb' 0 2 ++ b2).extractLsb' 8 2 := BitVec.extractLsb'_append_eq_of_le (by decide)
      _ = b1.extractLsb' 0 2 := BitVec.extractLsb'_append_eq_left
      _ = (raw16 (.four b0 b1 b2 b3)).extractLsb' 0 2 := hraw.symm
  case minusOne =>
    have hw : raw16 inb = 0xFFFF#16 := eq_of_dataField _ hd ht
    exact ⟨hw, by rw [decodeSample_v14_of_raw16 inb hw]; decide⟩
  case least =>
    have hw : raw16 inb = 0x8003#16 := eq_of_dataField _ hd ht
    exact ⟨hw, by rw [decodeSample_v14_of_raw16 inb hw]; decide⟩

end Sys2Proof.Machine

/-! ## Steps of an idle engine (spec 20_memory R52, R60) -/

namespace Sys2Proof.Machine

/-- A step of an idle engine with a host write at its port takes it from there and writes the word. -/
theorem step_of_port_eq_hostWrite {s : State} {i : BitVec 16} {v : Word16} {rest : List Input} (hw : s.waiting = none)
    (hp : s.port = .hostWrite i v :: rest) : step s = .next ((s.accept rest).hostWrite i v) := by
  simp only [step, stepWith, nextInput_of_port hw hp]

/-- Settles O15: it is `step_of_decode_eq_ok`, the state after the input is taken written out. -/
theorem stepRunsTheDecodedInstruction : Obligations.StepRunsTheDecodedInstruction := by
  unfold Obligations.StepRunsTheDecodedInstruction
  exact fun _ _ _ _ hw hp hd => step_of_decode_eq_ok hw hp hd

/-- Settles O17: the host's word is read back where it was written, and every other word as before. -/
theorem hostWritesOneWordOfDst : Obligations.HostWritesOneWordOfDst := by
  unfold Obligations.HostWritesOneWordOfDst
  intro s i v rest hw hp
  exact ⟨dstWrite s.dst i.toNat v, step_of_port_eq_hostWrite hw hp, fun j => dstRead_dstWrite s.dst i.toNat j v⟩

end Sys2Proof.Machine

/-! ## Commands that return OK: their transfers and the shadow after them (spec 00_scope R11, 41_config_ops R131,
70_reset_and_hazards R206) -/

namespace Sys2Proof.Machine

section
variable {TCfg TErr : Type} {s t u : State TCfg TErr} {i : Instr TCfg} {evs : List (Event TCfg TErr)}
variable {r : Response TErr} {cwe wc ws : Bool} {c : RegisterConfig}

/-! ### One successful exchange -/

/-- A command still waiting has logged no response. -/
theorem log_ne_append_resp : s.log ≠ s.log ++ evs ++ [.resp r] := by
  intro h
  simpa using congrArg List.length h

/-- The events before a response are what was logged before it. -/
theorem events_of_respond {evs' : List (Event TCfg TErr)} {r' : Response TErr} (hu : u.log = s.log ++ evs')
    (h : (u.respond r').log = s.log ++ evs ++ [.resp r]) : evs = evs' :=
  List.append_cancel_left ((List.append_inj' h rfl).1.symm.trans hu)

/-- A TRANSACT that returns OK has made its one exchange in state READY, and the shadow has advanced. -/
theorem ExecTo.transact_ok (h : ExecTo s (.transact cwe wc ws c) t) (hlog : t.log = s.log ++ evs ++ [.resp r])
    (hst : r.status = .ok) : t.ready = true ∧ (t.p = (if cwe then c else s.p) ∧ t.a = s.p) ∧
      ∃ inb, evs = [.xfer (transactOut cwe c wc s) (.ok inb)] := by
  cases h with
  | uninit | transactErr =>
    obtain rfl := respond_log_inj hlog
    cases hst
  | transactHung => exact absurd hlog log_ne_append_resp
  | transactOk _ _ _ _ _ _ inb hr =>
    exact ⟨hr, ⟨rfl, rfl⟩, inb, events_of_respond rfl hlog⟩

/-- The same of a WRITE_CONFIG. -/
theorem ExecTo.writeConfig_ok (h : ExecTo s (.writeConfig c) t) (hlog : t.log = s.log ++ evs ++ [.resp r])
    (hst : r.status = .ok) : t.p = c ∧ t.a = s.p := by
  cases h with
  | uninit | writeErr =>
    obtain rfl := respond_log_inj hlog
    cases hst
  | writeHung => exact absurd hlog log_ne_append_resp
  | writeOk => exact ⟨rfl, rfl⟩

/-- A CONFIRM that finds readback active and is answered makes one exchange of 4 bytes. -/
theorem execTransact_confirm_xferLens {f : InFrame} (hr : s.ready = true) (hb : rb s.a = true)
    (h : nextAnswers [outBytes false 0#13 .four] s = [f.answer]) :
    ∃ t, execTransact false true false 0#13 s = .next t ∧ xferLens (t.log.drop s.log.length) = [.four] := by
  have hout : transactOut false 0#13 true s = outBytes false 0#13 .four := transactOut_confirm hb
  refine ⟨_, execTransact_ok hr (hout ▸ h), ?_⟩
  rw [List.drop_left, hout]
  rfl

end

/-- Settles O21: each of the two commands has made one exchange, and `transact_ok` and `writeConfig_ok` say what the
shadow is after it. -/
theorem writeLatencyIsOneTransfer : Obligations.WriteLatencyIsOneTransfer := by
  unfold Obligations.WriteLatencyIsOneTransfer
  intro c s t u evs evs' r r' cwe wc ws c' hr hwrite hlog hst
  obtain ⟨hp, ha⟩ := (exec_cases hwrite).writeConfig_ok hlog hst
  refine ⟨⟨hp, ha⟩, fun htransact hlog' hst' => ?_⟩
  obtain ⟨hready, ⟨-, hactive⟩, inb, rfl⟩ := (exec_cases htransact).transact_ok hlog' hst'
  refine ⟨hactive.trans hp, fun hb => ?length, fun hb out hout => ?confirm⟩
  case length => simp [rbAct, ha, hb, xferLen]
  case confirm =>
    rintro ⟨f, hf⟩
    exact execTransact_confirm_xferLens hready (by rw [hactive, hp, hb]) (hout ▸ hf)

/-! ### The number of successful exchanges since the last Acquire (R11) -/

section
variable {TCfg TErr : Type} (log evs : List (Event TCfg TErr))

/-- A successful Acquire starts the count again. -/
theorem transferCount_append_acq (tcfg : TCfg) : transferCount (log ++ .acq tcfg .ok :: evs) = transferCount evs := by
  simp [transferCount]

@[simp] theorem transferCount_append_xfer (out inb : Bytes) :
    transferCount (log ++ [.xfer out (.ok inb)]) = transferCount log + 1 := by
  simp [transferCount]

@[simp] theorem transferCount_append_resp (r : Response TErr) :
    transferCount (log ++ [.resp r]) = transferCount log := by
  simp [transferCount]

variable {s t : State TCfg TErr} {vtag : BitVec 8} {cfg : RegisterConfig} {tcfg : TCfg}

/-- An INIT that sets READY has made two exchanges since its Acquire. -/
theorem ExecTo.transferCount_of_init (h : ExecTo s (.init vtag cfg tcfg) t) (hs : s.ready = false)
    (ht : t.ready = true) : transferCount t.log = 2 := by
  cases h with
  | initOk =>
    rw [State.respond_log, transferCount_append_resp]
    exact transferCount_append_acq _ _ _
  | _ => exact absurd (hs.symm.trans ht) nofun

end

/-- Settles O50: INIT's two exchanges follow its Acquire, and the TRANSACT makes one more. -/
theorem firstSampleIsTheThirdTransfer : Obligations.FirstSampleIsTheThirdTransfer := by
  unfold Obligations.FirstSampleIsTheThirdTransfer
  intro vtag cfg tcfg s t hs hinit ht
  have htwo : transferCount t.log = 2 := (exec_cases hinit).transferCount_of_init hs ht
  refine ⟨htwo, fun cwe wc ws c u evs r h hlog hst => ?_⟩
  obtain ⟨-, -, inb, rfl⟩ := (exec_cases h).transact_ok hlog hst
  rw [hlog, transferCount_append_resp, transferCount_append_xfer, htwo]

/-! ### The table of costs (R206) -/

/-- How often a command that returns OK asks for the transport, by the table. -/
def acqCost {TCfg : Type} : Instr TCfg → Nat
  | .init _ _ _ => 1
  | .transact _ _ _ _ => 0
  | .writeConfig _ => 0
  | .readConfig => 0
  | .bulkRead _ _ => 0
  | .teardown => 0

/-- How often it releases the transport, by the table. -/
def relCost {TCfg : Type} : Instr TCfg → Nat
  | .teardown => 1
  | .transact _ _ _ _ => 0
  | .writeConfig _ => 0
  | .readConfig => 0
  | .bulkRead _ _ => 0
  | .init _ _ _ => 0

section
variable {TCfg TErr : Type} {s t : State TCfg TErr} {i : Instr TCfg} {evs : List (Event TCfg TErr)} {r : Response TErr}

/-- The events of a command that responded are those the table gives for it: all its costs where it returned OK, and the
one release of an INIT that failed at a transfer. -/
structure AtCost (s : State TCfg TErr) (i : Instr TCfg) (evs : List (Event TCfg TErr)) (r : Response TErr) : Prop where
  ok : r.status = .ok → xferLens evs = costOf i s ∧ acqCount evs = acqCost i ∧ relCount evs = relCost i
  failedInit : acqCost i = 1 → r.status = .transportFailure → xferLens evs ≠ [] → relCount evs = 1

theorem AtCost.refused (hr : r.status = .invalidArgument ∨ r.status = .allocationFailure) : AtCost s i [] r :=
  ⟨fun h => by simp [h] at hr, fun _ h => by simp [h] at hr⟩

theorem AtCost.of_ok (hr : r.status = .ok) (hx : xferLens evs = costOf i s) (ha : acqCount evs = acqCost i)
    (hl : relCount evs = relCost i) : AtCost s i evs r :=
  ⟨fun _ => ⟨hx, ha, hl⟩, fun _ h => by simp [hr] at h⟩

theorem AtCost.failed {e : TErr} (h : acqCost i = 1 → xferLens evs ≠ [] → relCount evs = 1) :
    AtCost s i evs (.transport e) :=
  ⟨nofun, fun hi _ => h hi⟩

/-- A command that does not wait has responded at the cost the table gives. -/
theorem ExecTo.exists_atCost (h : ExecTo s i t) (hw : t.waiting = none) :
    ∃ evs r, t.log = s.log ++ evs ++ [.resp r] ∧ AtCost s i evs r := by
  cases h with
  | uninit | initTag | bulkNull => exact ⟨[], .invalid, by simp, .refused (.inl rfl)⟩
  | initInUse => exact ⟨[], .allocation, by simp, .refused (.inr rfl)⟩
  | transactOk _ wc =>
    refine ⟨_, _, rfl, .of_ok rfl ?_ rfl rfl⟩
    cases hb : wc && rb s.a <;> simp [costOf, rbAct, xferLen, hb]
  | writeOk | teardown | initOk => exact ⟨_, _, rfl, .of_ok rfl rfl rfl rfl⟩
  | shortOk | longOk => exact ⟨_, _, rfl, .of_ok rfl (by simp [costOf, *]) rfl rfl⟩
  | bulkOk _ frames _ _ _ hl =>
    exact ⟨_, _, rfl, .of_ok rfl (by simp [costOf, hl]) (by simp [acqCost]) (by simp [relCost])⟩
  | transactErr | writeErr | shortErr | longAErr | longBErr | longCErr => exact ⟨_, _, rfl, .failed nofun⟩
  | bulkErr _ frames _ _ e =>
    refine ⟨bulkEvents s.v 0 frames ++ [.xfer zeroBytes (.err e)], .transport e, ?_, .failed nofun⟩
    simp [bulkState]
  | initAcqErr => exact ⟨_, _, rfl, .failed fun _ h => absurd rfl h⟩
  | initWriteErr | initConvErr => exact ⟨_, _, rfl, .failed fun _ _ => rfl⟩
  | transactHung | writeHung | shortHung | longAHung | longBHung | longCHung | bulkHung | initAcqHung | initWriteHung
  | initConvHung => simp at hw

end

/-- A command that came to an idle engine and delivered a response did so at the cost the table gives. -/
theorem exec_atCost {s t : State} {i : Instr} {evs : List Event} {r : Response} (hs : s.waiting = none)
    (h : exec i s = .next t) (hlog : t.log = s.log ++ evs ++ [.resp r]) : AtCost s i evs r := by
  have hw : t.waiting = none := (exec_cases h).commandEnds.waiting_eq_none hs hlog
  obtain ⟨evs', r', hlog', hcost⟩ := (exec_cases h).exists_atCost hw
  obtain ⟨rfl, rfl⟩ : evs' = evs ∧ r' = r := by simpa using hlog'.symm.trans hlog
  exact hcost

/-- Settles O41: `AtCost`, with the table's two counts read off the command. -/
theorem costsInTransfers : Obligations.CostsInTransfers := by
  unfold Obligations.CostsInTransfers
  intro i s t evs r hs h hlog
  have hcost : AtCost s i evs r := exec_atCost hs h hlog
  refine ⟨fun hst => ?ok, ?failed⟩
  case ok => cases i <;> exact hcost.ok hst
  case failed =>
    rintro vtag cfg tcfg rfl
    exact hcost.failedInit rfl

end Sys2Proof.Machine

/-! ## What a command cannot see (spec 00_scope R7, 10_state R32, 20_memory R48)

Two runs of one command are compared part by part. `Simulation` says what a relation of states must be kept by for every
command to keep it; that the engine never reads DST and never looks into a configuration or an error of the transport
are two such relations. -/

namespace Sys2Proof.Machine

open Sys2Proof.Config

section
variable {A B A' B' : Type} {α α' β β' : Type}

/-! ### Two parts of a command side by side -/

/-- Both parts are done, in related states with related values, or both wait, in states related by `H`. -/
def Flow.Rel (H D : State A B → State A' B' → Prop) (Q : α → α' → Prop) : Flow A B α → Flow A' B' α' → Prop
  | .done s x, .done s' x' => D s s' ∧ Q x x'
  | .hung s, .hung s' => H s s'
  | .done _ _, .hung _ => False
  | .hung _, .done _ _ => False

variable {H D D' : State A B → State A' B' → Prop} {Q : α → α' → Prop} {Q' : β → β' → Prop}

theorem Flow.Rel.andThen {p : Flow A B α} {p' : Flow A' B' α'} {k : State A B → α → Flow A B β}
    {k' : State A' B' → α' → Flow A' B' β'} (hp : p.Rel H D Q p')
    (hk : ∀ s s' x x', D s s' → Q x x' → (k s x).Rel H D' Q' (k' s' x')) :
    (p.andThen k).Rel H D' Q' (p'.andThen k') := by
  cases p with
  | done s x =>
    cases p' with
    | done s' x' => exact hk s s' x x' hp.1 hp.2
    | hung => exact hp.elim
  | hung s =>
    cases p' with
    | done => exact hp.elim
    | hung s' => exact hp

end

section
variable {A B A' B' : Type}

/-- What a relation of the states of two machines must be kept by for every command to keep it, the configurations of
the one sent through `f` to the other and the errors through `g`. `R k n` holds of states that have `k` answers to
Acquire and `n` answers to exchanges to come, as far as the relation asks for them. -/
structure Simulation (f : A → A') (g : B → B') (R : Nat → Nat → State A B → State A' B' → Prop) : Prop where
  mono : ∀ {k n s s'} (k' n' : Nat), k' ≤ k → n' ≤ n → R k n s s' → R k' n' s s'
  ready : ∀ {k n s s'}, R k n s s' → s'.ready = s.ready
  a : ∀ {k n s s'}, R k n s s' → s'.a = s.a
  allocate : ∀ {k n s s'} (vtag : BitVec 8), R k n s s' → R k n (s.allocate vtag) (s'.allocate vtag)
  release : ∀ {k n s s'}, R k n s s' → R k n (release s) (release s')
  setReady : ∀ {k n s s'} (b : Bool), R k n s s' → R k n (s.setReady b) (s'.setReady b)
  writeDst : ∀ {k n s s'} (i : Nat) (v : Word16), R k n s s' → R k n (s.writeDst i v) (s'.writeDst i v)
  respond : ∀ {k n s s'} (r : Response B), R k n s s' → R k n (s.respond r) (s'.respond (r.mapErr g))
  acquire : ∀ {k n s s'} (tcfg : A), R (k + 1) n s s' →
    (acquire tcfg s).Rel (R 0 0) (R k n) (fun r r' => r' = AcqResult.mapErr g r) (acquire (f tcfg) s')
  transact : ∀ {k n s s'} (cwe : Bool) (c : RegisterConfig) (wc ws : Bool), R k (n + 1) s s' →
    (transact cwe c wc ws s).Rel (R 0 0) (R k n) (fun r r' => r' = r.mapErr g) (transact cwe c wc ws s')

variable {f : A → A'} {g : B → B'} {R : Nat → Nat → State A B → State A' B' → Prop} {k n : Nat}
variable {s : State A B} {s' : State A' B'}

/-- Two parts of a command that end in related states with the same response, or wait in related states. -/
def PartRel (g : B → B') (R : Nat → Nat → State A B → State A' B' → Prop) (k n : Nat) (p : Part A B) (p' : Part A' B') :
    Prop :=
  p.Rel (R 0 0) (R k n) (fun r r' => r' = r.mapErr g) p'

theorem PartRel.done (r : Response B) (h : R k n s s') : PartRel g R k n (.done s r) (.done s' (r.mapErr g)) :=
  ⟨h, rfl⟩

section
variable {p q : Part A B} {p' q' : Part A' B'} {K : State A B → Response B → Part A B}
variable {K' : State A' B' → Response B' → Part A' B'} {k₀ n₀ : Nat}

theorem PartRel.andThen (hp : PartRel g R k₀ n₀ p p')
    (hK : ∀ s s' r, R k₀ n₀ s s' → PartRel g R k n (K s r) (K' s' (r.mapErr g))) :
    PartRel g R k n (p.andThen K) (p'.andThen K') := by
  refine Flow.Rel.andThen hp ?_
  rintro s s' r _ h rfl
  exact hK s s' r h

theorem PartRel.statusOnly (hp : PartRel g R k n p p') : PartRel g R k n p.statusOnly p'.statusOnly :=
  hp.andThen fun _ _ r h => .done r.statusOnly h

/-- Both machines see the same status. -/
theorem PartRel.ifOk (r : Response B) (hok : PartRel g R k n p p') (herr : PartRel g R k n q q') :
    PartRel g R k n (if r.status = .ok then p else q) (if (r.mapErr g).status = .ok then p' else q') := by
  by_cases h : r.status = .ok
  · rwa [if_pos h, if_pos (show (r.mapErr g).status = .ok from h)]
  · rwa [if_neg h, if_neg (show (r.mapErr g).status ≠ .ok from h)]

end

/-! ### The meanings of the commands side by side -/

section
variable (hR : Simulation f g R)
include hR

theorem Simulation.onOk {p : Part A B} {p' : Part A' B'} {K : State A B → Response B → Part A B}
    {K' : State A' B' → Response B' → Part A' B'} {m : Nat} (hm : n ≤ m) (hp : PartRel g R k m p p')
    (hK : ∀ s s' r, R k m s s' → PartRel g R k n (K s r) (K' s' (r.mapErr g))) :
    PartRel g R k n (p.onOk K) (p'.onOk K') :=
  hp.andThen fun s s' r h => .ifOk r (hK s s' r h) (.done r (hR.mono k n le_rfl hm h))

theorem Simulation.orRelease {p : Part A B} {p' : Part A' B'} {K : State A B → Part A B} {K' : State A' B' → Part A' B'}
    {m : Nat} (hm : n ≤ m) (hp : PartRel g R k m p p') (hK : ∀ s s', R k m s s' → PartRel g R k n (K s) (K' s')) :
    PartRel g R k n (orRelease p K) (orRelease p' K') :=
  hp.andThen fun s s' r h => .ifOk r (hK s s' h) (.done r.statusOnly (hR.release (hR.mono k n le_rfl hm h)))

theorem Simulation.whenReady {K : State A B → Part A B} {K' : State A' B' → Part A' B'} {m : Nat} (hm : n ≤ m)
    (h : R k m s s') (hK : PartRel g R k n (K s) (K' s')) : PartRel g R k n (whenReady s K) (whenReady s' K') := by
  cases hs : s.ready with
  | true => rwa [whenReady_ready hs, whenReady_ready ((hR.ready h).trans hs)]
  | false =>
    rw [whenReady_unready hs, whenReady_unready ((hR.ready h).trans hs)]
    exact .done .invalid (hR.mono k n le_rfl hm h)

theorem Simulation.confirmRead (h : R k (n + 1) s s') : PartRel g R k n (confirmRead s) (confirmRead s') :=
  hR.transact _ _ _ _ h

theorem Simulation.readConfigLong (h : R k (n + 3) s s') : PartRel g R k n (readConfigLong s) (readConfigLong s') := by
  rw [Machine.readConfigLong, Machine.readConfigLong, hR.a h]
  refine hR.onOk (by omega) (hR.transact _ _ _ _ h) fun s₁ s₁' _ h₁ => ?_
  refine hR.onOk (by omega) (hR.transact _ _ _ _ h₁) fun s₂ s₂' _ h₂ => ?_
  exact hR.confirmRead h₂

theorem Simulation.bulkLoop (m i : Nat) (h : R k (n + m) s s') :
    PartRel g R k n (bulkLoop m i s) (bulkLoop m i s') := by
  induction m generalizing i s s' with
  | zero => exact .done .okPlain h
  | succ m ih =>
    refine PartRel.andThen (hR.transact _ _ _ _ h) fun s₁ s₁' r h₁ => .ifOk r ?_ ?_
    · exact ih (i + 1) (hR.writeDst i r.sample h₁)
    · exact .done r.statusOnly (hR.mono k n le_rfl (Nat.le_add_right n m) h₁)

theorem Simulation.initTransfers (cfg : RegisterConfig) (h : R k (n + 2) s s') :
    PartRel g R k n (initTransfers cfg s) (initTransfers cfg s') := by
  refine hR.orRelease (by omega) (hR.transact _ _ _ _ h) fun s₁ s₁' h₁ => ?_
  refine hR.orRelease le_rfl (hR.transact _ _ _ _ h₁) fun s₂ s₂' h₂ => ?_
  exact .done .okPlain (hR.setReady true h₂)

theorem Simulation.initAllocated (vtag : BitVec 8) (cfg : RegisterConfig) (tcfg : A) (h : R (k + 1) (n + 2) s s') :
    PartRel g R k n (initAllocated vtag cfg tcfg s) (initAllocated vtag cfg (f tcfg) s') := by
  refine Flow.Rel.andThen (hR.acquire tcfg (hR.allocate vtag h)) ?_
  rintro s₁ s₁' (_ | e) _ h₁ rfl
  · exact hR.initTransfers cfg h₁
  · exact PartRel.done (.transport e) (hR.mono k n le_rfl (by omega) h₁)

/-- A command ends in related states. -/
theorem Simulation.finish {p : Part A B} {p' : Part A' B'} (hp : PartRel g R 0 0 p p') :
    ∃ t t', p.finish = .next t ∧ p'.finish = .next t' ∧ R 0 0 t t' := by
  cases p with
  | done s r =>
    cases p' with
    | done s' r' =>
      obtain ⟨h, rfl⟩ := hp
      exact ⟨_, _, rfl, rfl, hR.respond r h⟩
    | hung => exact hp.elim
  | hung s =>
    cases p' with
    | done => exact hp.elim
    | hung s' => exact ⟨s, s', rfl, rfl, hp⟩

/-- Every command keeps the relation, which has to ask for one answer to Acquire and 65535 to exchanges. -/
theorem Simulation.execOf (i : Instr A) (h : R 1 65535 s s') :
    ∃ t t', execOf i s = .next t ∧ execOf (mapInstr f i) s' = .next t' ∧ R 0 0 t t' := by
  have budget {m : Nat} (hm : m ≤ 65535) : R 0 m s s' := hR.mono 0 m (Nat.zero_le 1) hm h
  cases i with
  | transact cwe wc ws cfg =>
    exact hR.finish (hR.whenReady (Nat.zero_le 1) (budget (by decide)) (hR.transact _ _ _ _ (budget (by decide))))
  | writeConfig cfg =>
    exact hR.finish (hR.whenReady (Nat.zero_le 1) (budget (by decide))
      (PartRel.statusOnly (hR.transact _ _ _ _ (budget (by decide)))))
  | readConfig =>
    refine hR.finish (hR.whenReady (Nat.zero_le 1) (budget (by decide)) ?_)
    have hb : rbAct s' = rbAct s := congrArg rb (hR.a h)
    rw [hb]
    split
    · exact hR.confirmRead (budget (by decide))
    · exact hR.readConfigLong (budget (by decide))
  | bulkRead dv count =>
    refine hR.finish (hR.whenReady (Nat.zero_le 1) (budget (by decide)) ?_)
    split
    · exact hR.bulkLoop count.toNat 0 (budget (by omega))
    · exact .done .invalid (budget (by decide))
  | init vtag cfg tcfg =>
    refine hR.finish ?_
    rw [hR.ready h]
    split
    · exact .done .invalid (budget (by decide))
    split
    · exact .done .allocation (budget (by decide))
    · exact hR.initAllocated vtag cfg tcfg (hR.mono 1 2 le_rfl (by decide) h)
  | teardown =>
    exact hR.finish (hR.whenReady (Nat.zero_le 1) (budget (by decide))
      (.done .okPlain (hR.setReady false (hR.release (budget (by decide))))))

end

end

/-! ### DST (R48) -/

section
variable {TCfg TErr : Type} {s : State TCfg TErr}

/-- The second state is the first but for DST. -/
def SameButDst (_ _ : Nat) (s s' : State TCfg TErr) : Prop := ∃ d, s' = { s with dst := d }

theorem transact_sameButDst (cwe : Bool) (c : RegisterConfig) (wc ws : Bool) (s : State TCfg TErr) (d : Dst)
    (k n : Nat) :
    (transact cwe c wc ws s).Rel (SameButDst 0 0) (SameButDst k n) (fun r r' => r' = r.mapErr id)
      (transact cwe c wc ws { s with dst := d }) := by
  have hout : transactOut cwe c wc { s with dst := d } = transactOut cwe c wc s := rfl
  simp only [transact_eq, hout]
  rcases takeXfer (transactOut cwe c wc s) s.xferAnswers s.draws with ⟨⟨b0, b1, b2, b3⟩ | e | _, q, m⟩
  · exact ⟨⟨d, rfl⟩, rfl⟩
  · exact ⟨⟨d, rfl⟩, rfl⟩
  · exact ⟨d, rfl⟩

theorem acquire_sameButDst (tcfg : TCfg) (s : State TCfg TErr) (d : Dst) (k n : Nat) :
    (acquire tcfg s).Rel (SameButDst 0 0) (SameButDst k n) (fun r r' => r' = AcqResult.mapErr id r)
      (acquire tcfg { s with dst := d }) := by
  simp only [acquire_eq]
  rcases takeAcq tcfg s.acqAnswers s.draws with ⟨_ | e | _, q, m⟩
  · exact ⟨⟨d, rfl⟩, rfl⟩
  · exact ⟨⟨d, rfl⟩, rfl⟩
  · exact ⟨d, rfl⟩

@[simp] theorem Response.mapErr_id (r : Response TErr) : r.mapErr id = r := by
  simp [Response.mapErr]

@[simp] theorem mapInstr_id (i : Instr TCfg) : mapInstr id i = i := by
  cases i <;> rfl

theorem simulation_sameButDst : Simulation (id : TCfg → TCfg) (id : TErr → TErr) SameButDst where
  mono _ _ _ _ h := h
  ready := by rintro _ _ s _ ⟨d, rfl⟩; rfl
  a := by rintro _ _ s _ ⟨d, rfl⟩; rfl
  allocate := by rintro _ _ s _ vtag ⟨d, rfl⟩; exact ⟨d, rfl⟩
  release := by rintro _ _ s _ ⟨d, rfl⟩; exact ⟨d, rfl⟩
  setReady := by rintro _ _ s _ b ⟨d, rfl⟩; exact ⟨d, rfl⟩
  writeDst := by rintro _ _ s _ i v ⟨d, rfl⟩; exact ⟨dstWrite d i v, rfl⟩
  respond := by rintro _ _ s _ r ⟨d, rfl⟩; exact ⟨d, by rw [Response.mapErr_id]; rfl⟩
  acquire := by rintro k n s _ tcfg ⟨d, rfl⟩; exact acquire_sameButDst tcfg s d k n
  transact := by rintro k n s _ cwe c wc ws ⟨d, rfl⟩; exact transact_sameButDst cwe c wc ws s d k n

end

/-- Settles O48: every command keeps the relation of two states that differ in DST alone. -/
theorem engineNeverReadsDst : Obligations.EngineNeverReadsDst := by
  unfold Obligations.EngineNeverReadsDst
  intro i s t d h
  obtain ⟨u, u', hu, hu', d', rfl⟩ :=
    simulation_sameButDst.execOf (s' := { s with dst := d }) i ⟨d, rfl⟩
  rw [mapInstr_id, ← exec_eq_execOf] at hu'
  rw [← exec_eq_execOf, h] at hu
  obtain rfl := Host.Outcome.next.inj hu
  exact ⟨d', hu'⟩

/-! ### Configurations and errors of the transport (R7, R41, R163) -/

section
variable {A B A' B' : Type} (f : A → A') (g : B → B') {k n : Nat} {s : State A B}

/-- The second state is the first with every configuration sent through `f` and every error through `g`, and the first
has `k` answers to Acquire and `n` answers to exchanges in its queues. -/
def Mapped (k n : Nat) (s : State A B) (s' : State A' B') : Prop :=
  s' = s.mapTypes f g ∧ k ≤ s.acqAnswers.length ∧ n ≤ s.xferAnswers.length

theorem Mapped.transact (cwe : Bool) (c : RegisterConfig) (wc ws : Bool) (hk : k ≤ s.acqAnswers.length)
    (hn : n + 1 ≤ s.xferAnswers.length) :
    (transact cwe c wc ws s).Rel (Mapped f g 0 0) (Mapped f g k n) (fun r r' => r' = r.mapErr g)
      (transact cwe c wc ws (s.mapTypes f g)) := by
  have hout : transactOut cwe c wc (s.mapTypes f g) = transactOut cwe c wc s := rfl
  obtain ⟨ans, rest, hq⟩ := List.exists_cons_of_length_pos (Nat.lt_of_lt_of_le n.succ_pos hn)
  rw [hq, List.length_cons, Nat.add_le_add_iff_right] at hn
  have hq' : (s.mapTypes f g).xferAnswers = XferAnswer.mapErr g ans :: rest.map (XferAnswer.mapErr g) := by
    simp [State.mapTypes, hq]
  simp only [transact_eq, hout, hq, hq', takeXfer]
  cases ans with
  | ok b0 b1 b2 b3 => exact ⟨⟨by simp [State.mapTypes, Event.mapTypes, XferResult.mapErr, rbAct], hk, hn⟩, rfl⟩
  | err e => exact ⟨⟨by simp [State.mapTypes, Event.mapTypes, XferResult.mapErr], hk, hn⟩, rfl⟩
  | never => exact ⟨rfl, Nat.zero_le _, Nat.zero_le _⟩

theorem Mapped.acquire (tcfg : A) (hk : k + 1 ≤ s.acqAnswers.length) (hn : n ≤ s.xferAnswers.length) :
    (acquire tcfg s).Rel (Mapped f g 0 0) (Mapped f g k n) (fun r r' => r' = AcqResult.mapErr g r)
      (acquire (f tcfg) (s.mapTypes f g)) := by
  obtain ⟨ans, rest, hq⟩ := List.exists_cons_of_length_pos (Nat.lt_of_lt_of_le k.succ_pos hk)
  rw [hq, List.length_cons, Nat.add_le_add_iff_right] at hk
  have hq' : (s.mapTypes f g).acqAnswers = AcqAnswer.mapErr g ans :: rest.map (AcqAnswer.mapErr g) := by
    simp [State.mapTypes, hq]
  simp only [acquire_eq, hq, hq', takeAcq]
  cases ans with
  | ok => exact ⟨⟨by simp [State.mapTypes, Event.mapTypes, AcqResult.mapErr], hk, hn⟩, rfl⟩
  | err e => exact ⟨⟨by simp [State.mapTypes, Event.mapTypes, AcqResult.mapErr], hk, hn⟩, rfl⟩
  | never => exact ⟨rfl, Nat.zero_le _, Nat.zero_le _⟩

theorem emit_mapTypes (e : Event A B) : (s.emit e).mapTypes f g = (s.mapTypes f g).emit (e.mapTypes f g) := by
  simp [State.mapTypes, State.emit]

theorem respond_mapTypes (r : Response B) :
    (s.respond r).mapTypes f g = (s.mapTypes f g).respond (r.mapErr g) := by
  simp [State.mapTypes, State.respond, Event.mapTypes]

theorem simulation_mapped : Simulation f g (Mapped f g) where
  mono := by rintro _ _ s _ k n hk hn ⟨rfl, hk', hn'⟩; exact ⟨rfl, hk.trans hk', hn.trans hn'⟩
  ready := by rintro _ _ s _ ⟨rfl, -⟩; rfl
  a := by rintro _ _ s _ ⟨rfl, -⟩; rfl
  allocate := by rintro _ _ s _ vtag ⟨rfl, hk, hn⟩; exact ⟨rfl, hk, hn⟩
  release := by rintro _ _ s _ ⟨rfl, hk, hn⟩; exact ⟨(emit_mapTypes f g .rel).symm, hk, hn⟩
  setReady := by rintro _ _ s _ b ⟨rfl, hk, hn⟩; exact ⟨rfl, hk, hn⟩
  writeDst := by
    rintro _ _ s _ i v ⟨rfl, hk, hn⟩
    exact ⟨by simp [State.mapTypes, State.writeDst, Event.mapTypes], hk, hn⟩
  respond := by rintro _ _ s _ r ⟨rfl, hk, hn⟩; exact ⟨(respond_mapTypes f g r).symm, hk, hn⟩
  acquire := by rintro _ _ s _ tcfg ⟨rfl, hk, hn⟩; exact Mapped.acquire f g tcfg hk hn
  transact := by rintro _ _ s _ cwe c wc ws ⟨rfl, hk, hn⟩; exact Mapped.transact f g cwe c wc ws hk hn

/-- A state whose queues are long enough and the same state mapped run every command alike. -/
theorem execOf_mapTypes (i : Instr A) (hk : s.acqAnswers ≠ []) (hn : 65535 ≤ s.xferAnswers.length) :
    ∃ t, execOf i s = .next t ∧ execOf (mapInstr f i) (s.mapTypes f g) = .next (t.mapTypes f g) := by
  obtain ⟨t, t', h, h', rfl, -⟩ :=
    (simulation_mapped f g).execOf i ⟨rfl, List.length_pos_of_ne_nil hk, hn⟩
  exact ⟨t, h, h'⟩

/-! ### The same of a step -/

/-- The decoder passes the side operand on unread. -/
theorem decode_map (w : CommandWord) (tcfg : A) : decode w (f tcfg) = (decode w tcfg).map (mapInstr f) := by
  have check (zero : Bool) (i : Instr A) : checkZero w zero (mapInstr f i) = (checkZero w zero i).map (mapInstr f) := by
    cases zero <;> rfl
  unfold decode
  split
  · exact check _ (.transact _ _ _ _)
  · exact check _ (.writeConfig _)
  · exact check _ .readConfig
  · exact check _ (.bulkRead _ _)
  · exact check _ (.init _ _ _)
  · exact check _ .teardown
  · rfl

theorem nextInput_mapTypes : nextInput (s.mapTypes f g) =
    (nextInput s).map fun x => (x.1.mapCfg f, x.2.mapTypes f g) := by
  rcases hw : s.waiting with _ | q <;> rcases hp : s.port with _ | ⟨x, rest⟩ <;>
    simp [nextInput, State.mapTypes, hw, hp, State.accept]

/-- Taking an input leaves the answers to come. -/
theorem answers_of_nextInput {x : Input A} {s₁ : State A B} (h : nextInput s = some (x, s₁)) :
    s₁.acqAnswers = s.acqAnswers ∧ s₁.xferAnswers = s.xferAnswers := by
  rcases hw : s.waiting with _ | q <;> rcases hp : s.port with _ | ⟨x, rest⟩ <;> simp [nextInput, hw, hp] at h
  obtain ⟨-, rfl⟩ := h
  exact ⟨rfl, rfl⟩

theorem stepOf_mapTypes (hk : s.acqAnswers ≠ []) (hn : 65535 ≤ s.xferAnswers.length) :
    ∃ t, stepOf s = .next t ∧ stepOf (s.mapTypes f g) = .next (t.mapTypes f g) := by
  simp only [stepOf, stepWith, nextInput_mapTypes]
  rcases hnext : nextInput s with _ | ⟨c | ⟨i, v⟩ | _, s₁⟩
  · exact ⟨s, rfl, rfl⟩
  · obtain ⟨hacq, hxfer⟩ := answers_of_nextInput hnext
    simp only [Option.map_some, Input.mapCfg, decode_map f c.word c.tcfg]
    cases decode c.word c.tcfg with
    | ok i => exact execOf_mapTypes f g i (hacq ▸ hk) (hxfer ▸ hn)
    | error e => exact ⟨_, rfl, congrArg _ (respond_mapTypes f g .invalid).symm⟩
  · exact ⟨_, rfl, rfl⟩
  · exact ⟨_, rfl, by simp [Input.mapCfg, State.hardwareReset, State.mapTypes, Event.mapTypes, State.resetOf]⟩

end

/-- Settles O51: every command, and so every step, keeps the relation of a state and the same state mapped. -/
theorem opaqueTypesAreNotInspected : Obligations.OpaqueTypesAreNotInspected := by
  unfold Obligations.OpaqueTypesAreNotInspected
  exact fun _ _ _ _ f g s hk hn => ⟨fun i => execOf_mapTypes f g i hk hn, stepOf_mapTypes f g hk hn⟩

/-! ### V, P and A while READY = 0 (R32) -/

/-- While READY = 0 every command but INIT is refused. -/
theorem exec_unready {s : State} {i : Instr} (hr : s.ready = false) (hi : ∀ vtag cfg tcfg, i ≠ .init vtag cfg tcfg) :
    exec i s = .next (s.respond .invalid) := by
  cases i with
  | init vtag cfg tcfg => exact absurd rfl (hi vtag cfg tcfg)
  | transact cwe wc ws cfg => exact execTransact_unready hr
  | writeConfig cfg => rw [exec, execWriteConfig, whenReady_unready hr, Flow.finish_done]
  | readConfig => rw [exec, execReadConfig, whenReady_unready hr, Flow.finish_done]
  | bulkRead dv count => exact execBulkRead_refused (.inl hr)
  | teardown => exact execTeardown_unready hr

/-- INIT allocates before it does anything else, so it does the same whatever V, P and A were. -/
theorem execInit_unobservable {s : State} {vtag : BitVec 8} (hr : s.ready = false) (hv : vtag.toNat ≤ 3)
    (v : BitVec 2) (p a : RegisterConfig) (cfg : RegisterConfig) (tcfg : TCfg) :
    execInit vtag cfg tcfg { s with v := v, p := p, a := a } = execInit vtag cfg tcfg s := by
  rw [execInit_allocated (s := s) hv hr]
  exact execInit_allocated hv hr

/-- Settles O49: a refused command only responds, and an INIT that is not refused overwrites all three first. -/
theorem uninitRegistersAreUnobservable : Obligations.UninitRegistersAreUnobservable := by
  unfold Obligations.UninitRegistersAreUnobservable
  intro i s t v p a hr h
  -- a refused command ends in UNINIT, V, P and A as they were
  have refused (hs : exec i s = .next (s.respond .invalid))
      (hs' : exec i { s with v := v, p := p, a := a } =
        .next (({ s with v := v, p := p, a := a } : State).respond .invalid)) :
      ∃ v' p' a', exec i { s with v := v, p := p, a := a } = .next { t with v := v', p := p', a := a' } ∧
        (t.ready = true → v' = t.v ∧ p' = t.p ∧ a' = t.a) := by
    obtain rfl := Host.Outcome.next.inj (hs.symm.trans h)
    exact ⟨v, p, a, hs', fun ht => absurd (hr.symm.trans ht) nofun⟩
  by_cases hi : ∃ vtag cfg tcfg, i = .init vtag cfg tcfg
  · obtain ⟨vtag, cfg, tcfg, rfl⟩ := hi
    by_cases hv : 3 < vtag.toNat
    · exact refused (execInit_unrecognized hv) (execInit_unrecognized hv)
    · refine ⟨t.v, t.p, t.a, ?_, fun _ => ⟨rfl, rfl, rfl⟩⟩
      exact (execInit_unobservable hr (Nat.not_lt.mp hv) v p a cfg tcfg).trans h
  · have hi' : ∀ vtag cfg tcfg, i ≠ .init vtag cfg tcfg := fun vtag cfg tcfg h => hi ⟨vtag, cfg, tcfg, h⟩
    exact refused (exec_unready hr hi') (exec_unready hr hi')

end Sys2Proof.Machine
